-- ==== Sys2Proof/Word.lean ====
section
/-! DEFINITION. The word types of the block (spec 00_scope.md rules R14, R15). -/

namespace Sys2Proof

/-- 8 bits: one element of PackedBytes (R26). -/
abbrev Byte := BitVec 8

/-- 32 bits: every host access and every register of the window (R42). -/
abbrev Word := BitVec 32

/-- A binary64 encoding: bit 63 sign, bits 62:52 biased exponent, bits 51:0 fraction (R15). -/
abbrev Binary64 := BitVec 64

/-- One 24-bit fixed-point coefficient (R25, R70). -/
abbrev Q24 := BitVec 24

/-- A byte offset inside the 256-byte window (R40). -/
abbrev Offset := BitVec 8

end Sys2Proof
end

