-- ==== Sys2Proof/Syntax.lean ====
section
/-! DEFINITION. The instructions of the block: the command words a host writes to `CMD` (spec 42_commands.md; the
rows of opcode_table.json). -/

namespace Sys2Proof

/-- One constructor per mnemonic of the opcode table. The seven INVALID_SEL rows are one instruction: their masks only
split the range `SEL` = 3..255 of rule R75, and rule R77 gives them one decoding (log entry 7). -/
inductive Instr where
  /-- RUN_REAL (R142): derive, keep doubles. -/
  | runReal
  /-- RUN_FIXED (R143): derive, then quantize. -/
  | runFixed
  /-- RUN_BYTES (R144): derive, quantize and pack. -/
  | runBytes
  /-- CONV_REAL (R145): accepted and completed, converts nothing. -/
  | convReal
  /-- CONV_FIXED (R146): quantize the present `COEF_R`. -/
  | convFixed
  /-- CONV_BYTES (R147): quantize and pack the present `COEF_R`. -/
  | convBytes
  /-- INVALID_SEL (R75, R148): a word whose `SEL` is 3..255, with its `SEL` byte and its `CONV` bit. -/
  | invalidSel (sel : BitVec 8) (conv : Bool)
  deriving DecidableEq, Repr

/-- The instruction's name in spec/opcode_table.json. -/
def Instr.mnemonic : Instr → String
  | .runReal => "RUN_REAL"
  | .runFixed => "RUN_FIXED"
  | .runBytes => "RUN_BYTES"
  | .convReal => "CONV_REAL"
  | .convFixed => "CONV_FIXED"
  | .convBytes => "CONV_BYTES"
  | .invalidSel _ _ => "INVALID_SEL"

end Sys2Proof
end

