-- ==== Sys2Proof/WellFormed.lean ====
section
/-! DEFINITION. Which terms of `Instr` stand for a command word. -/

namespace Sys2Proof

/-- The one check: an INVALID_SEL has a selector outside the three valid ones (R66, R75). -/
def Instr.wellFormed : Instr → Bool
  | .runReal => true
  | .runFixed => true
  | .runBytes => true
  | .convReal => true
  | .convFixed => true
  | .convBytes => true
  | .invalidSel sel _ => decide (2 < sel.toNat)

end Sys2Proof
end

