-- ==== Sys2Proof/Decode.lean ====
section
/-! DEFINITION. Decoding a command word (spec 30_encoding.md rules R65 to R67, R75 to R77), the opcode table as data,
and the encoder. -/

namespace Sys2Proof

/-- The field `SEL` of a command word (R65). -/
def selField (v : Word) : BitVec 8 := v.extractLsb' 0 8

/-- The field `CONV` of a command word (R65). -/
def convField (v : Word) : Bool := v.getLsbD 8

/-- `Decode` (R77), total on all 2^32 words; bits 31:9 are not looked at (R76). -/
def decode (v : Word) : Instr :=
  if 2 < (selField v).toNat then .invalidSel (selField v) (convField v)
  else if convField v then
    if (selField v).toNat = 0 then .convReal
    else if (selField v).toNat = 1 then .convFixed
    else .convBytes
  else
    if (selField v).toNat = 0 then .runReal
    else if (selField v).toNat = 1 then .runFixed
    else .runBytes

/-- Why bytes are not a command word. -/
inductive DecodeError where
  /-- A command word is four bytes (R65); `len` bytes were given. -/
  | notOneWord (len : Nat)
  deriving DecidableEq, Repr

/-- The word whose byte at offset `i` is bits `[8i+7:8i]` (R48). -/
def wordOfBytes (b0 b1 b2 b3 : Byte) : Word := b3 ++ b2 ++ b1 ++ b0

/-- The bytes of a word, the byte of the lowest offset first (R48). -/
def bytesOfWord (v : Word) : List Byte :=
  [v.extractLsb' 0 8, v.extractLsb' 8 8, v.extractLsb' 16 8, v.extractLsb' 24 8]

/-- Decoding on bytes: four bytes are one little-endian word, any other number is rejected by name. -/
def decodeBytes : List Byte → Except DecodeError Instr
  | [b0, b1, b2, b3] => .ok (decode (wordOfBytes b0 b1 b2 b3))
  | bs => .error (.notOneWord bs.length)

/-- The command word of an instruction, bits 31:9 zero: the canonical words of R77. -/
def encode : Instr → Word
  | .runReal => 0x00000000#32
  | .runFixed => 0x00000001#32
  | .runBytes => 0x00000002#32
  | .convReal => 0x00000100#32
  | .convFixed => 0x00000101#32
  | .convBytes => 0x00000102#32
  | .invalidSel sel conv => 0#23 ++ BitVec.ofBool conv ++ sel

/-- One row of spec/opcode_table.json. -/
structure OpcodeRow where
  mnemonic : String
  pattern : Word
  mask : Word
  deriving DecidableEq, Repr

/-- `v` falls under the row. -/
def OpcodeRow.matches (r : OpcodeRow) (v : Word) : Bool := v &&& r.mask == r.pattern

/-- The rows of the six valid command words. -/
def validRows : List OpcodeRow :=
  [⟨"RUN_REAL", 0x00000000#32, 0x000001FF#32⟩, ⟨"RUN_FIXED", 0x00000001#32, 0x000001FF#32⟩,
   ⟨"RUN_BYTES", 0x00000002#32, 0x000001FF#32⟩, ⟨"CONV_REAL", 0x00000100#32, 0x000001FF#32⟩,
   ⟨"CONV_FIXED", 0x00000101#32, 0x000001FF#32⟩, ⟨"CONV_BYTES", 0x00000102#32, 0x000001FF#32⟩]

/-- The rows that split `SEL` = 3..255. -/
def invalidRows : List OpcodeRow :=
  [⟨"INVALID_SEL", 0x00000003#32, 0x000000FF#32⟩, ⟨"INVALID_SEL", 0x00000004#32, 0x000000FC#32⟩,
   ⟨"INVALID_SEL", 0x00000008#32, 0x000000F8#32⟩, ⟨"INVALID_SEL", 0x00000010#32, 0x000000F0#32⟩,
   ⟨"INVALID_SEL", 0x00000020#32, 0x000000E0#32⟩, ⟨"INVALID_SEL", 0x00000040#32, 0x000000C0#32⟩,
   ⟨"INVALID_SEL", 0x00000080#32, 0x00000080#32⟩]

/-- spec/opcode_table.json. -/
def opcodeTable : List OpcodeRow := validRows ++ invalidRows

/-- The instruction the decoder reads from the command word whose low `nbits` bits are those of `w` and whose other
bits are 0, laid out as the four bytes of the `CMD` register. -/
def decodeTableWord (nbits w : Nat) : Option Instr :=
  match decodeBytes (bytesOfWord (BitVec.ofNat 32 (w % 2 ^ nbits))) with
  | .ok i => some i
  | .error _ => none

end Sys2Proof
end

