-- ==== Sys2Proof/Config.lean ====
section
/-! DEFINITION. What an implementation fixes (rules R5 to R12 of spec 00_scope.md) and the free values the spec
leaves open. A free value is an opaque constant with no body: no proof can see a value of it. -/

namespace Sys2Proof.Config

/-- `P_HS_A2` (R8): the form of the HighShelf `a2` term; `omits` is the spec's `OMIT`. -/
inductive HsA2 where
  | omits
  | cookbook
  deriving DecidableEq, Repr

/-- `P_QWIDE` (R9): what the quantizer gives for a finite floor outside the signed 32-bit range. -/
inductive QWide where
  | wrap
  | zero
  deriving DecidableEq, Repr

/-- The parameters of the datapath (R6 to R10). Every function of the datapath takes them as an argument, so that a
statement can speak of every choice of them; `Config.params` is this hardware's choice. -/
structure Params where
  sin : Binary64 → Binary64
  cos : Binary64 → Binary64
  sinh : Binary64 → Binary64
  pow : Binary64 → Binary64 → Binary64
  pi : Binary64
  ln2 : Binary64
  hsA2 : HsA2
  qWide : QWide
  qNonfinite : Q24

/-- `P_SIN` (R6): a total function of its operand alone, nothing else assumed (log entry 1). -/
opaque sin : Binary64 → Binary64

/-- `P_COS` (R6; log entry 1). -/
opaque cos : Binary64 → Binary64

/-- `P_SINH` (R6; log entry 1). -/
opaque sinh : Binary64 → Binary64

/-- `P_POW` (R6; log entry 1). -/
opaque pow : Binary64 → Binary64 → Binary64

/-- `P_BASE` (R5): the bus address of the window; the spec gives no default (log entry 2). -/
opaque base : Nat

/-- `P_NAN` (R11): the free part of the quiet NaN that one operation returns. The first argument is the draw counter
of the command that completes, the second the place of the operation in the rules (log entry 3). -/
opaque nanDraw : Nat → Nat → BitVec 52

/-- `P_LATENCY` (R12, R188): how many host turns pass between the acceptance of a command and its completion step.
The argument is the draw counter, never an input of the command (log entry 4). -/
opaque hostTurns : Nat → Nat

/-- What a read of a result register returns while a command is in flight (R45, R186): any 32-bit value, by the draw
counter (log entry 5). -/
opaque busyRead : Nat → Word

/-- The hardware's parameters: the open functions of R6 and the hardware defaults of R7 to R10 (log entry 6). -/
def params : Params where
  sin := sin
  cos := cos
  sinh := sinh
  pow := pow
  pi := 0x400921FB54442D18#64
  ln2 := 0x3FE62E42FEFA39EF#64
  hsA2 := .omits
  qWide := .wrap
  qNonfinite := 0x000000#24

end Sys2Proof.Config
end

