-- ==== Sys2Proof/Machine/Float.lean ====
section
/-! DEFINITION. IEEE 754 binary64 arithmetic, rounded to nearest, ties to even (spec 00_scope.md rule R15). A finite
value is an integer number of units of 2^-1074; each operation computes the exact result as a quotient of integers and
rounds it once. A result `none` means that the IEEE result is a NaN; which NaN pattern the hardware returns is the
free value of R11. What R15 leaves to IEEE 754 is log entry 13. -/

namespace Sys2Proof.Machine

/-- The sign bit (R15). -/
def F64.sign (x : Binary64) : Bool := x.getLsbD 63

/-- The biased exponent (R15). -/
def F64.expo (x : Binary64) : Nat := (x.extractLsb' 52 11).toNat

/-- The fraction field (R15). -/
def F64.frac (x : Binary64) : Nat := (x.extractLsb' 0 52).toNat

/-- A NaN encoding. -/
def F64.isNaN (x : Binary64) : Bool := F64.expo x == 2047 && F64.frac x != 0

/-- An encoding of an infinity. -/
def F64.isInf (x : Binary64) : Bool := F64.expo x == 2047 && F64.frac x == 0

/-- An encoding of a finite value. -/
def F64.isFinite (x : Binary64) : Bool := F64.expo x != 2047

/-- The magnitude of a finite value in units of 2^-1074. -/
def F64.mag (x : Binary64) : Nat :=
  if F64.expo x = 0 then F64.frac x else (F64.frac x + 2 ^ 52) * 2 ^ (F64.expo x - 1)

/-- The value of a finite encoding in units of 2^-1074. -/
def F64.units (x : Binary64) : Int := if F64.sign x then -(F64.mag x : Int) else (F64.mag x : Int)

/-- The encoding with the given sign and the given low 63 bits. -/
def F64.ofParts (neg : Bool) (bits : Nat) : Binary64 := BitVec.ofBool neg ++ BitVec.ofNat 63 bits

/-- The low 63 bits of an infinity. -/
def F64.infBits : Nat := 2047 * 2 ^ 52

/-- `n / d` rounded to an integer, to nearest, ties to even. -/
def roundNearestEven (n d : Nat) : Nat :=
  if d < 2 * (n % d) ∨ (2 * (n % d) = d ∧ n / d % 2 = 1) then n / d + 1 else n / d

/-- The low 63 bits of the binary64 that the magnitude `n / d`, in units, rounds to. The quantum is `2 ^ t` units, with
`t` chosen so that the significand has 53 bits, or 0 in the subnormal range; a significand rounded up to `2 ^ 53`
carries into the exponent; everything from `2 ^ 1024` on is an infinity. -/
def F64.roundBits (n d : Nat) : Nat :=
  min ((Nat.log2 (n / d) - 52) * 2 ^ 52 + roundNearestEven n (d * 2 ^ (Nat.log2 (n / d) - 52))) F64.infBits

/-- The binary64 that the exact value `± n / d` units rounds to. -/
def F64.round (neg : Bool) (n d : Nat) : Binary64 := F64.ofParts neg (F64.roundBits n d)

/-- Unary minus: the sign bit flipped, of a NaN too (R15, R100). -/
def F64.neg (x : Binary64) : Binary64 := x ^^^ 0x8000000000000000#64

/-- Addition. An exact sum of zero is `-0` only for two negative operands. -/
def F64.add (x y : Binary64) : Option Binary64 :=
  if F64.isNaN x || F64.isNaN y then none
  else if F64.isInf x then
    if F64.isInf y && F64.sign x != F64.sign y then none else some x
  else if F64.isInf y then some y
  else if F64.units x + F64.units y = 0 then some (F64.ofParts (F64.sign x && F64.sign y) 0)
  else some (F64.round (decide (F64.units x + F64.units y < 0)) (F64.units x + F64.units y).natAbs 1)

/-- Subtraction: addition of the negated second operand. -/
def F64.sub (x y : Binary64) : Option Binary64 := F64.add x (F64.neg y)

/-- A zero of either sign. -/
def F64.isZero (x : Binary64) : Bool := F64.expo x == 0 && F64.frac x == 0

/-- Multiplication. -/
def F64.mul (x y : Binary64) : Option Binary64 :=
  if F64.isNaN x || F64.isNaN y then none
  else if F64.isInf x || F64.isInf y then
    if F64.isZero x || F64.isZero y then none
    else some (F64.ofParts (F64.sign x != F64.sign y) F64.infBits)
  else some (F64.round (F64.sign x != F64.sign y) (F64.mag x * F64.mag y) (2 ^ 1074))

/-- Division. -/
def F64.div (x y : Binary64) : Option Binary64 :=
  if F64.isNaN x || F64.isNaN y then none
  else if F64.isInf x then
    if F64.isInf y then none else some (F64.ofParts (F64.sign x != F64.sign y) F64.infBits)
  else if F64.isInf y then some (F64.ofParts (F64.sign x != F64.sign y) 0)
  else if F64.isZero y then
    if F64.isZero x then none else some (F64.ofParts (F64.sign x != F64.sign y) F64.infBits)
  else some (F64.round (F64.sign x != F64.sign y) (F64.mag x * 2 ^ 1074) (F64.mag y))

/-- The integer square root of `m`, for a root below `acc + 2 ^ k`, one bit a step from bit `k - 1` down. -/
def isqrtFrom (m : Nat) : Nat → Nat → Nat
  | 0, acc => acc
  | k + 1, acc => isqrtFrom m k (if (acc + 2 ^ k) * (acc + 2 ^ k) ≤ m then acc + 2 ^ k else acc)

/-- `sqrt (m / 4 ^ t)` rounded to an integer, to nearest, ties to even, where `r` is its integer part. -/
def roundRoot (m t r : Nat) : Nat :=
  if (2 * r + 1) ^ 2 * 4 ^ t < 4 * m ∨ ((2 * r + 1) ^ 2 * 4 ^ t = 4 * m ∧ r % 2 = 1) then r + 1 else r

/-- `sqrt (m / 4 ^ t)` rounded to an integer, for a root below `2 ^ 54`. -/
def roundSqrt (m t : Nat) : Nat := roundRoot m t (isqrtFrom (m / 4 ^ t) 54 0)

/-- The low 63 bits of the binary64 that `sqrt m` units rounds to. -/
def F64.sqrtBits (m : Nat) : Nat :=
  (Nat.log2 m / 2 - 52) * 2 ^ 52 + roundSqrt m (Nat.log2 m / 2 - 52)

/-- Square root, correctly rounded (R15). -/
def F64.sqrt (x : Binary64) : Option Binary64 :=
  if F64.isNaN x then none
  else if F64.isZero x then some x
  else if F64.sign x then none
  else if F64.isInf x then some x
  else some (F64.ofParts false (F64.sqrtBits (F64.mag x * 2 ^ 1074)))

/-- The quiet NaN with the given sign and payload (R11): any quiet NaN, of either sign, is one of these. -/
def F64.quietNaN (d : BitVec 52) : Binary64 := d.extractLsb' 51 1 ++ 0xFFF#12 ++ d.extractLsb' 0 51

/-- `+` with the NaN pattern `n` where the result is a NaN. -/
def fadd (n x y : Binary64) : Binary64 := (F64.add x y).getD n

/-- Binary `-`, in the same way. -/
def fsub (n x y : Binary64) : Binary64 := (F64.sub x y).getD n

/-- `*`, in the same way. -/
def fmul (n x y : Binary64) : Binary64 := (F64.mul x y).getD n

/-- `/`, in the same way. -/
def fdiv (n x y : Binary64) : Binary64 := (F64.div x y).getD n

/-- `SQRT`, in the same way. -/
def fsqrt (n x : Binary64) : Binary64 := (F64.sqrt x).getD n

/-- The literal `0.0`. -/
def F64.zero : Binary64 := 0x0000000000000000#64

/-- The literal `1.0`. -/
def F64.one : Binary64 := 0x3FF0000000000000#64

/-- The literal `2.0`. -/
def F64.two : Binary64 := 0x4000000000000000#64

/-- The literal `-2.0`. -/
def F64.minusTwo : Binary64 := 0xC000000000000000#64

/-- The literal `10.0`. -/
def F64.ten : Binary64 := 0x4024000000000000#64

/-- The literal `20.0`. -/
def F64.twenty : Binary64 := 0x4034000000000000#64

/-- The literal `40.0`. -/
def F64.forty : Binary64 := 0x4044000000000000#64

/-- The literal `4194304.0`, 2^22 (R121). -/
def F64.scale : Binary64 := 0x4150000000000000#64

end Sys2Proof.Machine
end

