-- ==== Sys2Proof/Machine/State.lean ====
section
/-! DEFINITION. The state of the block (spec 10_state.md rules R20 to R31), the host's side of the register interface,
and the reasons a step can stop. Plain data throughout. -/

namespace Sys2Proof.Machine

/-- The name of a coefficient, in the order of R18. -/
inductive Coef where
  | a0 | a1 | a2 | b0 | b1 | b2
  deriving DecidableEq, Repr

/-- Six values in coefficient order `a0, a1, a2, b0, b1, b2` (R18). -/
structure Six (α : Type) where
  a0 : α
  a1 : α
  a2 : α
  b0 : α
  b1 : α
  b2 : α
  deriving DecidableEq, Repr

/-- The three bytes of one 24-bit value (R26, R128). -/
structure Triple where
  low : Byte
  mid : Byte
  high : Byte
  deriving DecidableEq, Repr

/-- What `CTRL` stores (R21, R31): the four fields; its reserved bits are not stored (R76). -/
structure Ctrl where
  ftype : BitVec 4
  qopt : BitVec 2
  norm : Bool
  quirk : BitVec 4
  deriving DecidableEq, Repr

/-- The values a command reads, captured at acceptance (R150). -/
structure Snapshot where
  ctrl : Ctrl
  freq : Binary64
  gain : Binary64
  srate : Binary64
  qval : Binary64
  coefR : Six Binary64
  deriving DecidableEq, Repr

/-- The kinds of accepted command (R77): the six instructions that are not rejected. -/
inductive Kind where
  | runReal | runFixed | runBytes | convReal | convFixed | convBytes
  deriving DecidableEq, Repr

/-- The in-flight record `PEND` (R28). `turns` is the model's own: how many host turns pass before the completion
step (R12, R188; log entry 4). -/
structure InFlight where
  kind : Kind
  snap : Snapshot
  turns : Nat
  deriving DecidableEq, Repr

/-- The four parameter registers (R22). -/
inductive Param where
  | freq | gain | srate | qval
  deriving DecidableEq, Repr

/-- The two 32-bit words of a 64-bit register (R48). -/
inductive Half where
  | lo | hi
  deriving DecidableEq, Repr

/-- The width of a host access (R42). -/
inductive Width where
  | w8 | w16 | w32 | w64
  deriving DecidableEq, Repr

/-- Why a step stops with a fault: the three causes of a bus error, in the order of R166. Each is raised by a host
access (`access` of Machine/Ops.lean) whose platform stops on a bus error; the block's state is as before the access
(R162). SAFE: the block itself goes on, the model claims nothing of what follows (log entry 8). -/
inductive Fault where
  /-- An access that is not 32 bits wide (R42). -/
  | busWidth (off : Offset)
  /-- A 32-bit access whose offset is not a multiple of 4 (R43). -/
  | busMisaligned (off : Offset)
  /-- An aligned 32-bit access to an unmapped offset (R44). -/
  | busUnmapped (off : Offset)
  deriving DecidableEq, Repr

/-- Why a step is refused. -/
inductive Refusal where
  /-- The instruction has no meaning in the model yet. Raised by no arm of `exec`. SAFE. -/
  | notModelled (mnemonic : String)
  deriving DecidableEq, Repr

/-- One line of what the outside does to the block (R13, R17, R78, R79, R181). -/
inductive HostOp where
  /-- A read of the given width at an offset of the window. -/
  | read (w : Width) (off : Offset)
  /-- A write of the given width at an offset; `v` is the data of a 32-bit write. -/
  | write (w : Width) (off : Offset) (v : Word)
  /-- `POLL` (R79): read `STATUS`, again until the word read has bit 0 clear. -/
  | poll
  /-- The reset input is pulsed (R180, R181). -/
  | reset
  deriving DecidableEq, Repr

/-- What a completed access returns to the host (R51). -/
inductive Response where
  | data (v : Word)
  | written
  | busError (r : Fault)
  deriving DecidableEq, Repr

/-- What the platform does with a bus error response (R162: "a fault in a processor, a status bit in a DMA"). -/
inductive BusErrorPolicy where
  /-- The run stops: the step is a fault. -/
  | stops
  /-- The response is recorded and the host goes on. -/
  | records
  deriving DecidableEq, Repr

/-- The whole state. The fields from `ctrl` to `pend` are the state tuple of R31; `BUSY` is not stored (R28). The last
four are the model's own: the host's side of the interface and the counter that indexes the free values. -/
structure State where
  ctrl : Ctrl
  freq : Binary64
  gain : Binary64
  srate : Binary64
  qval : Binary64
  coefR : Six Binary64
  coefQ : Six Q24
  pack : Six Triple
  done : Bool
  err : Bool
  pend : Option InFlight
  /-- The host's lines not performed yet, the next one first (R51). -/
  host : List HostOp
  /-- What the accesses performed so far returned, the latest first (R51). -/
  seen : List Response
  /-- What the platform does with a bus error (R162; log entry 8). -/
  policy : BusErrorPolicy
  /-- The draw counter of the free values (log entries 3 to 5). -/
  draws : Nat
  deriving DecidableEq, Repr

/-- Six copies of one value. -/
def Six.fill {α : Type} (x : α) : Six α := ⟨x, x, x, x, x, x⟩

/-- The reset value of `CTRL` (R30), the word `0x00000100`. -/
def Ctrl.initial : Ctrl := ⟨0#4, 0#2, true, 0#4⟩

/-- The state after reset (R30, R180): no host line, no response, no draw yet (log entry 9). -/
def State.reset : State where
  ctrl := Ctrl.initial
  freq := 0#64
  gain := 0#64
  srate := 0#64
  qval := 0#64
  coefR := Six.fill 0#64
  coefQ := Six.fill 0#24
  pack := Six.fill ⟨0#8, 0#8, 0#8⟩
  done := false
  err := false
  pend := none
  host := []
  seen := []
  policy := .stops
  draws := 0

/-- The coefficient named by `k`. -/
def Six.get {α : Type} (c : Six α) : Coef → α
  | .a0 => c.a0
  | .a1 => c.a1
  | .a2 => c.a2
  | .b0 => c.b0
  | .b1 => c.b1
  | .b2 => c.b2

/-- `c` with the coefficient named by `k` replaced. -/
def Six.set {α : Type} (c : Six α) : Coef → α → Six α
  | .a0, x => { c with a0 := x }
  | .a1, x => { c with a1 := x }
  | .a2, x => { c with a2 := x }
  | .b0, x => { c with b0 := x }
  | .b1, x => { c with b1 := x }
  | .b2, x => { c with b2 := x }

/-- The same function on each of the six (R126). -/
def Six.map {α β : Type} (f : α → β) (c : Six α) : Six β :=
  ⟨f c.a0, f c.a1, f c.a2, f c.b0, f c.b1, f c.b2⟩

/-- `CTRL` replaced. -/
def State.setCtrl (c : Ctrl) (s : State) : State := { s with ctrl := c }

/-- The value of a parameter register. -/
def State.param (s : State) : Param → Binary64
  | .freq => s.freq
  | .gain => s.gain
  | .srate => s.srate
  | .qval => s.qval

/-- A parameter register replaced. -/
def State.setParam (s : State) : Param → Binary64 → State
  | .freq, v => { s with freq := v }
  | .gain, v => { s with gain := v }
  | .srate, v => { s with srate := v }
  | .qval, v => { s with qval := v }

/-- `COEF_R` replaced. -/
def State.setCoefR (c : Six Binary64) (s : State) : State := { s with coefR := c }

/-- `COEF_Q` replaced. -/
def State.setCoefQ (c : Six Q24) (s : State) : State := { s with coefQ := c }

/-- `PACK` replaced. -/
def State.setPack (c : Six Triple) (s : State) : State := { s with pack := c }

/-- `STATUS.DONE` and `STATUS.ERR` replaced. -/
def State.setStatus (done err : Bool) (s : State) : State := { s with done := done, err := err }

/-- `PEND` replaced. -/
def State.setPend (p : Option InFlight) (s : State) : State := { s with pend := p }

/-- The host's remaining lines replaced. -/
def State.setHost (h : List HostOp) (s : State) : State := { s with host := h }

/-- The host receives the response of its access. -/
def State.receive (r : Response) (s : State) : State := { s with seen := r :: s.seen }

/-- One draw of a free value is used up. -/
def State.nextDraw (s : State) : State := { s with draws := s.draws + 1 }

end Sys2Proof.Machine
end

