-- ==== Sys2Proof/Machine/Operands.lean ====
section
/-! DEFINITION. Operand forms: the codes of `CTRL`, binary64 values in two words, coefficients by index, and the
packed words (spec 30_encoding.md rules R60 to R64, R69 to R74; 20_memory.md rules R45 to R48). -/

namespace Sys2Proof.Machine

/-- The nine filter types (R61). -/
inductive FilterType where
  | lowPass | highPass | bandPassPeakQ | bandPassZeroDb | notch | allPass | peaking | lowShelf | highShelf
  deriving DecidableEq, Repr

/-- The three meanings of `qOptionValue` (R62). -/
inductive QOption where
  | q | bandwidth | shelfSlope
  deriving DecidableEq, Repr

/-- The filter type of an `FTYPE` code (R61); codes 9 to 15 act as Peaking (R72). -/
def filterType (c : BitVec 4) : FilterType :=
  match c.toNat with
  | 0 => .lowPass
  | 1 => .highPass
  | 2 => .bandPassPeakQ
  | 3 => .bandPassZeroDb
  | 4 => .notch
  | 5 => .allPass
  | 7 => .lowShelf
  | 8 => .highShelf
  | _ => .peaking

/-- The option of a `QOPT` code (R62); code 3 acts as Bandwidth (R73). -/
def qOption (c : BitVec 2) : QOption :=
  match c.toNat with
  | 0 => .q
  | 2 => .shelfSlope
  | _ => .bandwidth

/-- The fields that a write of `v` stores in `CTRL` (R46, R60); bits 7:6, 11:9 and 31:16 are dropped (R76). -/
def Ctrl.ofWord (v : Word) : Ctrl where
  ftype := v.extractLsb' 0 4
  qopt := v.extractLsb' 4 2
  norm := v.getLsbD 8
  quirk := v.extractLsb' 12 4

/-- What a read of `CTRL` returns (R45). -/
def Ctrl.word (c : Ctrl) : Word :=
  0#16 ++ c.quirk ++ 0#3 ++ BitVec.ofBool c.norm ++ 0#2 ++ c.qopt ++ c.ftype

/-- One word of a 64-bit register (R48). -/
def halfOf (x : Binary64) : Half → Word
  | .lo => x.extractLsb' 0 32
  | .hi => x.extractLsb' 32 32

/-- A 64-bit register with one word replaced (R46). -/
def withHalf (x : Binary64) : Half → Word → Binary64
  | .lo, v => halfOf x .hi ++ v
  | .hi, v => v ++ halfOf x .lo

/-- The coefficient at index `k` (R18). -/
def coefAt : Nat → Option Coef
  | 0 => some .a0
  | 1 => some .a1
  | 2 => some .a2
  | 3 => some .b0
  | 4 => some .b1
  | 5 => some .b2
  | _ => none

/-- The index of a coefficient (R18). -/
def Coef.index : Coef → Nat
  | .a0 => 0
  | .a1 => 1
  | .a2 => 2
  | .b0 => 3
  | .b1 => 4
  | .b2 => 5

/-- The three bytes of a 24-bit value (R128). -/
def tripleOf (q : Q24) : Triple := ⟨q.extractLsb' 0 8, q.extractLsb' 8 8, q.extractLsb' 16 8⟩

/-- Byte `i` of a triple, 0 = low. -/
def Triple.byte (t : Triple) : Nat → Byte
  | 0 => t.low
  | 1 => t.mid
  | _ => t.high

/-- PackedBytes element `n` (R47): byte `n mod 3` of coefficient `n div 3`; 0 from element 18 on (R71). -/
def packedByte (p : Six Triple) (n : Nat) : Byte :=
  match coefAt (n / 3) with
  | some k => (p.get k).byte (n % 3)
  | none => 0#8

/-- The word `PACK[j]` (R71). -/
def packWord (p : Six Triple) (j : Nat) : Word :=
  packedByte p (4 * j + 3) ++ packedByte p (4 * j + 2) ++ packedByte p (4 * j + 1) ++ packedByte p (4 * j)

/-- `Snapshot()` (R150). -/
def State.snapshot (s : State) : Snapshot := ⟨s.ctrl, s.freq, s.gain, s.srate, s.qval, s.coefR⟩

/-- The instruction that an accepted kind is (R77). -/
def Kind.instr : Kind → Instr
  | .runReal => .runReal
  | .runFixed => .runFixed
  | .runBytes => .runBytes
  | .convReal => .convReal
  | .convFixed => .convFixed
  | .convBytes => .convBytes

/-- The NaN patterns of one completion: for each operation place, any quiet NaN (R11; log entry 3). -/
def nanSupply (draw : Nat) (place : Nat) : Binary64 := F64.quietNaN (Config.nanDraw draw place)

end Sys2Proof.Machine
end

