-- ==== Sys2Proof/Machine/Derive.lean ====
section
/-! DEFINITION. The derivation stage (spec 40_derivation.md rules R80 to R107). `P` holds the parameters of R6 to R8;
`n` gives the NaN pattern of each operation: the operation's place is its rule's number times 100, plus its position. -/

namespace Sys2Proof.Machine

open Sys2Proof.Config (Params)

/-- The angular frequency `w0` (R81). -/
def angularFrequency (P : Params) (n : Nat → Binary64) (f fs : Binary64) : Binary64 :=
  fdiv (n 8102) (fmul (n 8101) (fmul (n 8100) F64.two P.pi) f) fs

/-- The types whose amplitude factor has divisor 20 and whose a-terms are those of R87 (R61, R82). -/
def FilterType.plain : FilterType → Bool
  | .lowPass | .highPass | .bandPassPeakQ | .bandPassZeroDb | .notch | .allPass => true
  | .peaking | .lowShelf | .highShelf => false

/-- The amplitude factor `A` (R82). -/
def amplitude (P : Params) (n : Nat → Binary64) (ty : FilterType) (g : Binary64) : Binary64 :=
  if ty.plain then P.pow F64.ten (fdiv (n 8200) g F64.twenty)
  else P.pow F64.ten (fdiv (n 8201) g F64.forty)

/-- Alpha from Q (R84). -/
def alphaQ (n : Nat → Binary64) (sw qv : Binary64) : Binary64 :=
  fdiv (n 8401) sw (fmul (n 8400) F64.two qv)

/-- Alpha from shelf slope (R85). -/
def alphaShelfSlope (n : Nat → Binary64) (sw A qv : Binary64) : Binary64 :=
  fmul (n 8508) (fdiv (n 8500) sw F64.two)
    (fsqrt (n 8507)
      (fadd (n 8506)
        (fmul (n 8505) (fadd (n 8502) A (fdiv (n 8501) F64.one A))
          (fsub (n 8504) (fdiv (n 8503) F64.one qv) F64.one))
        F64.two))

/-- Alpha from bandwidth (R86). -/
def alphaBandwidth (P : Params) (n : Nat → Binary64) (sw w0 qv : Binary64) : Binary64 :=
  fmul (n 8604) sw
    (P.sinh (fmul (n 8603) (fmul (n 8601) (fdiv (n 8600) P.ln2 F64.two) qv) (fdiv (n 8602) w0 sw)))

/-- Alpha, chosen by the option alone (R84 to R86, R104). -/
def alphaOf (P : Params) (n : Nat → Binary64) (o : QOption) (sw w0 A qv : Binary64) : Binary64 :=
  match o with
  | .q => alphaQ n sw qv
  | .shelfSlope => alphaShelfSlope n sw A qv
  | .bandwidth => alphaBandwidth P n sw w0 qv

/-- The common a-terms of R87 with the given b-terms. -/
def withPlainATerms (n : Nat → Binary64) (cw alpha b0 b1 b2 : Binary64) : Six Binary64 where
  a0 := fadd (n 8700) F64.one alpha
  a1 := fmul (n 8701) F64.minusTwo cw
  a2 := fsub (n 8702) F64.one alpha
  b0 := b0
  b1 := b1
  b2 := b2

/-- LowPass (R88): `b2` is a copy of `b0`. -/
def lowPass (n : Nat → Binary64) (cw alpha : Binary64) : Six Binary64 :=
  withPlainATerms n cw alpha
    (fdiv (n 8801) (fsub (n 8800) F64.one cw) F64.two)
    (fsub (n 8802) F64.one cw)
    (fdiv (n 8801) (fsub (n 8800) F64.one cw) F64.two)

/-- HighPass (R89): `b2` is a copy of `b0`. -/
def highPass (n : Nat → Binary64) (cw alpha : Binary64) : Six Binary64 :=
  withPlainATerms n cw alpha
    (fdiv (n 8901) (fadd (n 8900) F64.one cw) F64.two)
    (F64.neg (fadd (n 8902) F64.one cw))
    (fdiv (n 8901) (fadd (n 8900) F64.one cw) F64.two)

/-- BandPassPeakQ (R90). -/
def bandPassPeakQ (n : Nat → Binary64) (sw cw alpha : Binary64) : Six Binary64 :=
  withPlainATerms n cw alpha
    (fdiv (n 9000) sw F64.two) F64.zero (F64.neg (fdiv (n 9001) sw F64.two))

/-- BandPassZeroDb (R91). -/
def bandPassZeroDb (n : Nat → Binary64) (cw alpha : Binary64) : Six Binary64 :=
  withPlainATerms n cw alpha alpha F64.zero (F64.neg alpha)

/-- Notch (R92). -/
def notch (n : Nat → Binary64) (cw alpha : Binary64) : Six Binary64 :=
  withPlainATerms n cw alpha F64.one (fmul (n 9200) F64.minusTwo cw) F64.one

/-- AllPass (R93). -/
def allPass (n : Nat → Binary64) (cw alpha : Binary64) : Six Binary64 :=
  withPlainATerms n cw alpha
    (fsub (n 9300) F64.one alpha) (fmul (n 9301) F64.minusTwo cw) (fadd (n 9302) F64.one alpha)

/-- Peaking, and every unrecognized type (R94). -/
def peaking (n : Nat → Binary64) (cw A alpha : Binary64) : Six Binary64 where
  a0 := fadd (n 9401) F64.one (fdiv (n 9400) alpha A)
  a1 := fmul (n 9402) F64.minusTwo cw
  a2 := fsub (n 9404) F64.one (fdiv (n 9403) alpha A)
  b0 := fadd (n 9406) F64.one (fmul (n 9405) alpha A)
  b1 := fmul (n 9407) F64.minusTwo cw
  b2 := fsub (n 9409) F64.one (fmul (n 9408) alpha A)

/-- `t`, the source's twoSqrtAAlpha (R95). -/
def shelfT (n : Nat → Binary64) (A alpha : Binary64) : Binary64 :=
  fmul (n 9502) (fmul (n 9501) F64.two (fsqrt (n 9500) A)) alpha

/-- `Ap` (R95). -/
def shelfAp (n : Nat → Binary64) (A : Binary64) : Binary64 := fadd (n 9503) A F64.one

/-- `Am` (R95). -/
def shelfAm (n : Nat → Binary64) (A : Binary64) : Binary64 := fsub (n 9504) A F64.one

/-- LowShelf from the shelf intermediates (R96, R97). -/
def lowShelf (n : Nat → Binary64) (cw A t Ap Am : Binary64) : Six Binary64 where
  a0 := fadd (n 9702) (fadd (n 9701) Ap (fmul (n 9700) Am cw)) t
  a1 := fmul (n 9705) F64.minusTwo (fadd (n 9704) Am (fmul (n 9703) Ap cw))
  a2 := fsub (n 9708) (fadd (n 9707) Ap (fmul (n 9706) Am cw)) t
  b0 := fmul (n 9603) A (fadd (n 9602) (fsub (n 9601) Ap (fmul (n 9600) Am cw)) t)
  b1 := fmul (n 9607) (fmul (n 9604) F64.two A) (fsub (n 9606) Am (fmul (n 9605) Ap cw))
  b2 := fmul (n 9611) A (fsub (n 9610) (fsub (n 9609) Ap (fmul (n 9608) Am cw)) t)

/-- The HighShelf `a2` in the form of `P_HS_A2` (R99). -/
def highShelfA2 (P : Params) (n : Nat → Binary64) (cw t Ap Am : Binary64) : Binary64 :=
  match P.hsA2 with
  | .omits => fsub (n 9901) Ap (fmul (n 9900) Am cw)
  | .cookbook => fsub (n 9904) (fsub (n 9903) Ap (fmul (n 9902) Am cw)) t

/-- HighShelf from the shelf intermediates (R98, R99). -/
def highShelf (P : Params) (n : Nat → Binary64) (cw A t Ap Am : Binary64) : Six Binary64 where
  a0 := fadd (n 9814) (fsub (n 9813) Ap (fmul (n 9812) Am cw)) t
  a1 := fmul (n 9817) F64.two (fsub (n 9816) Am (fmul (n 9815) Ap cw))
  a2 := highShelfA2 P n cw t Ap Am
  b0 := fmul (n 9803) A (fadd (n 9802) (fadd (n 9801) Ap (fmul (n 9800) Am cw)) t)
  b1 := fmul (n 9807) (fmul (n 9804) F64.minusTwo A) (fadd (n 9806) Am (fmul (n 9805) Ap cw))
  b2 := fmul (n 9811) A (fsub (n 9810) (fadd (n 9809) Ap (fmul (n 9808) Am cw)) t)

/-- The raw coefficients, chosen by the filter type alone (R104). -/
def rawCoefficients (P : Params) (n : Nat → Binary64) (ty : FilterType) (sw cw A alpha : Binary64) : Six Binary64 :=
  match ty with
  | .lowPass => lowPass n cw alpha
  | .highPass => highPass n cw alpha
  | .bandPassPeakQ => bandPassPeakQ n sw cw alpha
  | .bandPassZeroDb => bandPassZeroDb n cw alpha
  | .notch => notch n cw alpha
  | .allPass => allPass n cw alpha
  | .peaking => peaking n cw A alpha
  | .lowShelf => lowShelf n cw A (shelfT n A alpha) (shelfAp n A) (shelfAm n A)
  | .highShelf => highShelf P n cw A (shelfT n A alpha) (shelfAp n A) (shelfAm n A)

/-- The sign flip of `a1` and `a2` (R100). -/
def signFlip (c : Six Binary64) : Six Binary64 := { c with a1 := F64.neg c.a1, a2 := F64.neg c.a2 }

/-- Quirk post-processing: a pass-through for every code (R74, R101). -/
def quirkPass (_quirk : BitVec 4) (c : Six Binary64) : Six Binary64 := c

/-- Division of all six coefficients by the same `a0` (R102). -/
def divideByA0 (n : Nat → Binary64) (c : Six Binary64) : Six Binary64 where
  a0 := fdiv (n 10205) c.a0 c.a0
  a1 := fdiv (n 10204) c.a1 c.a0
  a2 := fdiv (n 10203) c.a2 c.a0
  b0 := fdiv (n 10202) c.b0 c.a0
  b1 := fdiv (n 10201) c.b1 c.a0
  b2 := fdiv (n 10200) c.b2 c.a0

/-- The coefficients before normalization (R81 to R101). -/
def unnormalized (P : Params) (n : Nat → Binary64) (S : Snapshot) : Six Binary64 :=
  let ty := filterType S.ctrl.ftype
  let w0 := angularFrequency P n S.freq S.srate
  let A := amplitude P n ty S.gain
  let sw := P.sin w0
  let cw := P.cos w0
  let alpha := alphaOf P n (qOption S.ctrl.qopt) sw w0 A S.qval
  quirkPass S.ctrl.quirk (signFlip (rawCoefficients P n ty sw cw A alpha))

/-- `Derive` (R107), on the values of a snapshot (R80). Irreducible, so that comparing two states does not compute it. -/
@[irreducible] def derive (P : Params) (n : Nat → Binary64) (S : Snapshot) : Six Binary64 :=
  if S.ctrl.norm then divideByA0 n (unnormalized P n S) else unnormalized P n S

end Sys2Proof.Machine
end

