-- ==== Sys2Proof/Machine/Quantize.lean ====
section
/-! DEFINITION. The quantizer and packer stage (spec 41_quantize_pack.md rules R120 to R132). -/

namespace Sys2Proof.Machine

open Sys2Proof.Config (Params)

/-- The integer part, toward negative infinity, of a finite binary64 (R122). -/
def F64.floor (v : Binary64) : Int := F64.units v / 2 ^ 1074

/-- The range of a signed 32-bit integer (R124). -/
def inInt32 (k : Int) : Bool := decide (-(2 ^ 31) ≤ k ∧ k ≤ 2 ^ 31 - 1)

/-- The 24-bit word of an integer: `P_QWIDE` outside the signed 32-bit range (R124), else the mask (R125). -/
def maskInteger (P : Params) (k : Int) : Q24 :=
  if !inInt32 k && decide (P.qWide = .zero) then 0#24 else BitVec.ofInt 24 k

/-- `Quantize` (R120, R132): scale (R121), non-finite values (R123), floor (R122), mask. Irreducible,
so that comparing two states does not compute it. -/
@[irreducible] def quantize (P : Params) (x : Binary64) : Q24 :=
  match F64.mul x F64.scale with
  | none => P.qNonfinite
  | some v => if F64.isFinite v then maskInteger P (F64.floor v) else P.qNonfinite

/-- `Quantize6` (R126). -/
def quantize6 (P : Params) (c : Six Binary64) : Six Q24 := c.map (quantize P)

/-- `Pack` (R128): the 18 bytes, three per coefficient. -/
def packBytes (P : Params) (c : Six Binary64) : Six Triple := (quantize6 P c).map tripleOf

end Sys2Proof.Machine
end

