-- ==== Sys2Proof/Machine/Flags.lean ====
section
/-! DEFINITION. The bits of `STATUS` (spec 10_state.md rule R27, 30_encoding.md rule R68) and how a command changes
them (42_commands.md rules R140, R148, R149). The block has no other flag (R29). -/

namespace Sys2Proof.Machine

/-- `STATUS.BUSY`: a command is in flight (R28). -/
def State.busy (s : State) : Bool := s.pend.isSome

/-- What a read of `STATUS` returns (R45, R68). -/
def State.statusWord (s : State) : Word :=
  0#29 ++ BitVec.ofBool s.err ++ BitVec.ofBool s.done ++ BitVec.ofBool s.busy

/-- Acceptance clears `DONE` and `ERR` (R140). -/
def State.statusAccepted (s : State) : State := s.setStatus false false

/-- Rejection sets `ERR` and clears `DONE` (R148). -/
def State.statusRejected (s : State) : State := s.setStatus false true

/-- Completion sets `DONE` and leaves `ERR` (R149). -/
def State.statusCompleted (s : State) : State := s.setStatus true s.err

end Sys2Proof.Machine
end

