-- ==== Sys2Proof/Machine/Registers.lean ====
section
/-! DEFINITION. The register window (spec 20_memory.md rules R40, R41, R45, R48; 00_scope.md rule R5). -/

namespace Sys2Proof.Machine

/-- A 32-bit register of the window (R41). -/
inductive Reg where
  | ctrl
  | cmd
  | status
  | param (p : Param) (h : Half)
  | coefR (k : Coef) (h : Half)
  | coefQ (k : Coef)
  | pack (j : Fin 5)
  deriving DecidableEq, Repr

/-- The offset of the low word of a parameter register (R41). -/
def Param.offset : Param → Nat
  | .freq => 0x10
  | .gain => 0x18
  | .srate => 0x20
  | .qval => 0x28

/-- The high word stands 4 above the low word (R48). -/
def Half.offset : Half → Nat
  | .lo => 0
  | .hi => 4

/-- The offset of a register from `P_BASE` (R41). -/
def Reg.offset : Reg → Offset
  | .ctrl => 0x00#8
  | .cmd => 0x04#8
  | .status => 0x08#8
  | .param p h => BitVec.ofNat 8 (p.offset + h.offset)
  | .coefR k h => BitVec.ofNat 8 (0x40 + 8 * k.index + h.offset)
  | .coefQ k => BitVec.ofNat 8 (0x80 + 4 * k.index)
  | .pack j => BitVec.ofNat 8 (0xA0 + 4 * j.val)

/-- The coefficients in order (R18). -/
def Coef.all : List Coef := [.a0, .a1, .a2, .b0, .b1, .b2]

/-- Every register of the window (R41). -/
def Reg.all : List Reg :=
  [.ctrl, .cmd, .status]
    ++ [Param.freq, .gain, .srate, .qval].flatMap (fun p => [.param p .lo, .param p .hi])
    ++ Coef.all.flatMap (fun k => [.coefR k .lo, .coefR k .hi])
    ++ Coef.all.map .coefQ
    ++ [.pack 0, .pack 1, .pack 2, .pack 3, .pack 4]

/-- The register at an offset; `none` at an unmapped one (R41, R44). -/
def Reg.atOffset (off : Offset) : Option Reg := Reg.all.find? (fun r => r.offset == off)

/-- The registers that ignore writes (R41, R46). -/
def Reg.readOnly : Reg → Bool
  | .status | .coefQ _ | .pack _ => true
  | .ctrl | .cmd | .param _ _ | .coefR _ _ => false

/-- The registers whose reads are free while a command is in flight (R45, R186). -/
def Reg.isResult : Reg → Bool
  | .coefR _ _ | .coefQ _ | .pack _ => true
  | .ctrl | .cmd | .status | .param _ _ => false

/-- What a read of the register returns when it is exact (R45). -/
def State.value (s : State) : Reg → Word
  | .ctrl => s.ctrl.word
  | .cmd => 0#32
  | .status => s.statusWord
  | .param p h => halfOf (s.param p) h
  | .coefR k h => halfOf (s.coefR.get k) h
  | .coefQ k => (s.coefQ.get k).setWidth 32
  | .pack j => packWord s.pack j.val

/-- Byte `i` of a word (R48). -/
def byteOf (v : Word) (i : Nat) : Byte := v.extractLsb' (8 * i) 8

/-- The window viewed as bytes (R48): the byte of the register that holds offset `off`. -/
def State.windowByte (s : State) (off : Offset) : Option Byte :=
  (Reg.atOffset (BitVec.ofNat 8 (4 * (off.toNat / 4)))).map (fun r => byteOf (s.value r) (off.toNat % 4))

/-- The offset in the window that starts at `base`, of a bus address; `none` for an address outside the window, which
does not reach the block (R5, R40). -/
def windowOffset (base addr : Nat) : Option Offset :=
  if base ≤ addr ∧ addr < base + 256 then some (BitVec.ofNat 8 (addr - base)) else none

end Sys2Proof.Machine
end

