-- ==== Sys2Proof/Machine/Ops.lean ====
section
/-! DEFINITION. The shared operations: acceptance, completion and rejection of a command (spec 42_commands.md rules
R140, R141, R148 to R150), the host's register accesses with their errors (20_memory.md rules R42 to R46,
60_exceptions.md rules R160 to R166), reset (70_reset_and_hazards.md rule R180), and one turn of the machine. -/

namespace Sys2Proof.Machine

/-- The three outcomes of a step of this machine. -/
abbrev Result := Host.Outcome State Fault Refusal

/-- Acceptance (R140): the command and its snapshot (R150) are in flight, `DONE` and `ERR` are cleared, and the number
of host turns before completion is drawn (R188). No result register changes. -/
def accept (k : Kind) (s : State) : State :=
  ((s.setPend (some ⟨k, s.snapshot, Config.hostTurns s.draws⟩)).statusAccepted).nextDraw

/-- The end of completion (R149): `PEND` is `none` and `DONE` is 1; the NaN draws of the command are used up. -/
def finish (s : State) : State := ((s.setPend none).statusCompleted).nextDraw

/-- The completion step of `k` is the next step of the engine (R149, R188). -/
def InFlight.due (p : InFlight) (k : Kind) : Bool := decide (p.kind = k) && p.turns == 0

/-- A valid command word in the state `s`: accepted when the block is idle (R140); the completion step, with the
writes `effect` of its own rule, when it is the command in flight and its completion is due (R149); else the block is
busy and the word is ignored (R141). The two phases in one meaning are log entry 11. -/
def command (k : Kind) (effect : Snapshot → State → State) (s : State) : Result :=
  match s.pend with
  | none => .next (accept k s)
  | some p => if p.due k then .next (finish (effect p.snap s)) else .next s

/-- The invalid selector (R148, R160): the block's one error. There is no trap entry (R163): nothing is saved, `ERR`
is set and `DONE` cleared. Its counterpart of a return is the next accepted command, which clears `ERR` (R140, R164). -/
def reject (s : State) : Result :=
  match s.pend with
  | none => .next s.statusRejected
  | some _ => .next s

/-- The derived coefficients of a snapshot, with the NaN draws of the present completion. -/
def derivedOf (S : Snapshot) (s : State) : Six Binary64 := derive Config.params (nanSupply s.draws) S

/-- `COEF_R` is written with the derived coefficients (R142). -/
def writeDerived (S : Snapshot) (s : State) : State := s.setCoefR (derivedOf S s)

/-- `COEF_Q` is written with the quantized coefficients (R143, R146). -/
def writeQuantized (c : Six Binary64) (s : State) : State := s.setCoefQ (quantize6 Config.params c)

/-- `PACK` is written with the packed bytes (R129, R144, R147). -/
def writePacked (c : Six Binary64) (s : State) : State := s.setPack (packBytes Config.params c)

/-- The checks of one access, in the order of R166; the register it reaches, or the bus error that answers it. -/
def checkAccess (w : Width) (off : Offset) : Except Fault Reg :=
  if w ≠ .w32 then .error (.busWidth off)
  else if off.toNat % 4 ≠ 0 then .error (.busMisaligned off)
  else
    match Reg.atOffset off with
    | none => .error (.busUnmapped off)
    | some r => .ok r

/-- A bus error (R162): the block's state is as before; the platform stops or records the response. -/
def busError (r : Fault) (s : State) : Result :=
  match s.policy with
  | .stops => .fault r
  | .records => .next (s.receive (.busError r))

/-- The word a read returns (R45): exact, but for the result registers while busy, whose word is free (R186). -/
def readWord (r : Reg) (s : State) : Word :=
  if r.isResult && s.busy then Config.busyRead s.draws else s.value r

/-- A read (R45): no effect on the block; a free word uses up one draw. -/
def readReg (r : Reg) (s : State) : State :=
  if r.isResult && s.busy then (s.receive (.data (readWord r s))).nextDraw
  else s.receive (.data (readWord r s))

/-- A write of `v` to a register that stores it (R46); `CMD` has no storage (R23), and a read-only register ignores
it. -/
def storeReg (r : Reg) (v : Word) (s : State) : State :=
  match r with
  | .ctrl => s.setCtrl (Ctrl.ofWord v)
  | .param p h => s.setParam p (withHalf (s.param p) h v)
  | .coefR k h => s.setCoefR (s.coefR.set k (withHalf (s.coefR.get k) h v))
  | .cmd | .status | .coefQ _ | .pack _ => s

/-- A write (R46): read-only registers ignore it, then a busy block ignores it, then `CMD` presents the word to `run`
(R140, R148) and every other register stores it. -/
def writeReg (run : Instr → State → Result) (r : Reg) (v : Word) (s : State) : Result :=
  if r.readOnly then .next s
  else if s.busy then .next s
  else if r = .cmd then run (decode v) s
  else .next (storeReg r v s)

/-- Reset (R180, R181): every piece of the block's state takes its reset value, a command in flight is discarded. The
host's side and the draw counter are not the block's. -/
def resetBlock (s : State) : State :=
  { State.reset with host := s.host, seen := s.seen, policy := s.policy, draws := s.draws }

/-- The host polls (R79): one read of `STATUS`, and the line stays while the word read says `BUSY`. -/
def pollStatus (s : State) : State :=
  if s.busy then (readReg .status s).setHost (.poll :: s.host) else readReg .status s

/-- One line of the host, taken off `s.host` already. A write's response is received before its effect. -/
def performLine (run : Instr → State → Result) (op : HostOp) (s : State) : Result :=
  match op with
  | .read w off =>
    match checkAccess w off with
    | .error r => busError r s
    | .ok r => .next (readReg r s)
  | .write w off v =>
    match checkAccess w off with
    | .error r => busError r s
    | .ok r => writeReg run r v (s.receive .written)
  | .poll => .next (pollStatus s)
  | .reset => .next (resetBlock s)

/-- A turn of the host (R51): its next line, if it has one. -/
def hostTurn (run : Instr → State → Result) (s : State) : Result :=
  match s.host with
  | [] => .next s
  | op :: rest => performLine run op (s.setHost rest)

/-- One host turn less before the completion step (R188). -/
def InFlight.elapse (p : InFlight) : InFlight := { p with turns := p.turns - 1 }

/-- One step of the machine: the engine's completion step when it is due (R149), else a turn of the host (R51); with
a command in flight, that turn is one of those that pass before completion. -/
def turn (run : Instr → State → Result) (s : State) : Result :=
  match s.pend with
  | none => hostTurn run s
  | some p =>
    if p.turns = 0 then run p.kind.instr s
    else hostTurn run (s.setPend (some p.elapse))

/-- The platform presents an access at a bus address (R5, R40): inside the window it joins the host's lines, outside
it does not reach the block. -/
def issueAt (base addr : Nat) (line : Offset → HostOp) (s : State) : State :=
  match windowOffset base addr with
  | some off => s.setHost (s.host ++ [line off])
  | none => s

/-- The platform presents an access at a bus address of this hardware, whose window starts at `P_BASE` (R5). -/
def issue (addr : Nat) (line : Offset → HostOp) (s : State) : State := issueAt Config.base addr line s

/-- The host's line that presents the command word `v`. -/
def commandLine (v : Word) : HostOp := .write .w32 Reg.cmd.offset v

/-- `s` with the block idle and the command word `v` as the host's next line. -/
def presentNext (v : Word) (s : State) : State := (s.setPend none).setHost (commandLine v :: s.host)

end Sys2Proof.Machine
end

