-- ==== Sys2Proof/Machine/ConvCommands.lean ====
section
/-! DEFINITION. The convert-only commands (spec 42_commands.md rules R145 to R147). -/

namespace Sys2Proof.Machine

/-- CONV_REAL writes no result register (R145). -/
def effectConvReal (_S : Snapshot) (s : State) : State := s

/-- CONV_REAL (R145). -/
def execConvReal (s : State) : Result := command .convReal effectConvReal s

/-- The writes of CONV_FIXED at completion (R146). -/
def effectConvFixed (S : Snapshot) (s : State) : State := writeQuantized S.coefR s

/-- CONV_FIXED (R146). -/
def execConvFixed (s : State) : Result := command .convFixed effectConvFixed s

/-- The writes of CONV_BYTES at completion (R147). -/
def effectConvBytes (S : Snapshot) (s : State) : State :=
  writePacked S.coefR (writeQuantized S.coefR s)

/-- CONV_BYTES (R147). -/
def execConvBytes (s : State) : Result := command .convBytes effectConvBytes s

end Sys2Proof.Machine
end

