-- ==== Sys2Proof/Machine/InvalidSelector.lean ====
section
/-! DEFINITION. The command word with an invalid selector (spec 42_commands.md rule R148). -/

namespace Sys2Proof.Machine

/-- INVALID_SEL (R148). The word is not kept and its `CONV` bit is irrelevant (R75, R160). -/
def execInvalidSel (_sel : BitVec 8) (_conv : Bool) (s : State) : Result := reject s

end Sys2Proof.Machine
end

