-- ==== Sys2Proof/Machine/RunCommands.lean ====
section
/-! DEFINITION. The derive-and-convert commands (spec 42_commands.md rules R142 to R144). -/

namespace Sys2Proof.Machine

/-- The writes of RUN_REAL at completion (R142). -/
def effectRunReal (S : Snapshot) (s : State) : State := writeDerived S s

/-- RUN_REAL (R142). -/
def execRunReal (s : State) : Result := command .runReal effectRunReal s

/-- The writes of RUN_FIXED at completion (R143). -/
def effectRunFixed (S : Snapshot) (s : State) : State :=
  writeQuantized (derivedOf S s) (writeDerived S s)

/-- RUN_FIXED (R143). -/
def execRunFixed (s : State) : Result := command .runFixed effectRunFixed s

/-- The writes of RUN_BYTES at completion (R144). -/
def effectRunBytes (S : Snapshot) (s : State) : State :=
  writePacked (derivedOf S s) (writeQuantized (derivedOf S s) (writeDerived S s))

/-- RUN_BYTES (R144). -/
def execRunBytes (s : State) : Result := command .runBytes effectRunBytes s

end Sys2Proof.Machine
end

