-- ==== Sys2Proof/Machine/Dispatch.lean ====
section
/-! DEFINITION. One arm per command word. -/

namespace Sys2Proof.Machine

def exec (i : Instr) (s : State) : Host.Outcome State Fault Refusal :=
  match i with
  | .runReal => Sys2Proof.Machine.execRunReal s
  | .runFixed => Sys2Proof.Machine.execRunFixed s
  | .runBytes => Sys2Proof.Machine.execRunBytes s
  | .convReal => Sys2Proof.Machine.execConvReal s
  | .convFixed => Sys2Proof.Machine.execConvFixed s
  | .convBytes => Sys2Proof.Machine.execConvBytes s
  | .invalidSel sel conv => Sys2Proof.Machine.execInvalidSel sel conv s

end Sys2Proof.Machine
end

