-- ==== Sys2Proof/Machine/Step.lean ====
section
/-! DEFINITION. The step of the machine, and the state whose next step runs a given command word. -/

namespace Sys2Proof.Machine

/-- One step: the engine's or the host's (R13, R51). -/
def step (s : State) : Host.Outcome State Fault Refusal := turn exec s

/-- `s` with the given command word written to `CMD` by the next step (log entry 10). -/
def State.withFetchWord (s : State) (nbits w : Nat) : State := presentNext (BitVec.ofNat 32 (w % 2 ^ nbits)) s

end Sys2Proof.Machine
end

