-- ==== Sys2Proof/Machine/HostProgram.lean ====
section
/-! DEFINITION. The host-program notation (spec 30_encoding.md rules R78 and R79). -/

namespace Sys2Proof.Machine

/-- `WR reg, v` (R78): its encoding is the pair of the offset and the data. -/
def wr (r : Reg) (v : Word) : HostOp := .write .w32 r.offset v

/-- `RD reg` (R78). -/
def rd (r : Reg) : HostOp := .read .w32 r.offset

/-- A register that holds a binary64 value in two words (R79). -/
inductive WideReg where
  | param (p : Param)
  | coefR (k : Coef)
  deriving DecidableEq, Repr

/-- One word of a binary64 register. -/
def WideReg.word : WideReg → Half → Reg
  | .param p, h => .param p h
  | .coefR k, h => .coefR k h

/-- `WR64 X, v` (R79): the low word, then the high word. -/
def wr64 (x : WideReg) (v : Binary64) : List HostOp := [wr (x.word .lo) (halfOf v .lo), wr (x.word .hi) (halfOf v .hi)]

/-- `RD64 X` (R79): the low word, then the high word. -/
def rd64 (x : WideReg) : List HostOp := [rd (x.word .lo), rd (x.word .hi)]

/-- `DERIVE(f, g, fs, qopt, qv, ftype, norm, quirk, sel)` (R79), with the four fields given as `c`. -/
def deriveCall (f g fs qv : Binary64) (c : Ctrl) (sel : Word) : List HostOp :=
  [.poll] ++ wr64 (.param .freq) f ++ wr64 (.param .gain) g ++ wr64 (.param .srate) fs ++ wr64 (.param .qval) qv
    ++ [wr .ctrl c.word, wr .cmd sel, .poll, rd .status]

end Sys2Proof.Machine
end

