-- ==== Sys2Proof/Machine/Listing.lean ====
section
/-! DEFINITION. The two listings of the spec, written as the spec writes them (40_derivation.md rule R107,
41_quantize_pack.md rule R132): what the staged definitions of Derive.lean and Quantize.lean are held against. -/

namespace Sys2Proof.Machine

open Sys2Proof.Config (Params)

/-- The a- and b-terms of R107 for the codes 0 to 5, as `[a0, a1, a2, b0, b1, b2]`. -/
def listingPlain (n : Nat → Binary64) (ftype : Nat) (sw cw alpha : Binary64) : List Binary64 :=
  let a0 := fadd (n 8700) F64.one alpha
  let a1 := fmul (n 8701) F64.minusTwo cw
  let a2 := fsub (n 8702) F64.one alpha
  if ftype = 0 then
    let b0 := fdiv (n 8801) (fsub (n 8800) F64.one cw) F64.two
    [a0, a1, a2, b0, fsub (n 8802) F64.one cw, b0]
  else if ftype = 1 then
    let b0 := fdiv (n 8901) (fadd (n 8900) F64.one cw) F64.two
    [a0, a1, a2, b0, F64.neg (fadd (n 8902) F64.one cw), b0]
  else if ftype = 2 then
    [a0, a1, a2, fdiv (n 9000) sw F64.two, F64.zero, F64.neg (fdiv (n 9001) sw F64.two)]
  else if ftype = 3 then [a0, a1, a2, alpha, F64.zero, F64.neg alpha]
  else if ftype = 4 then [a0, a1, a2, F64.one, fmul (n 9200) F64.minusTwo cw, F64.one]
  else
    [a0, a1, a2, fsub (n 9300) F64.one alpha, fmul (n 9301) F64.minusTwo cw, fadd (n 9302) F64.one alpha]

/-- The a- and b-terms of R107 for the codes 7 and 8. -/
def listingShelf (P : Params) (n : Nat → Binary64) (ftype : Nat) (cw A alpha : Binary64) : List Binary64 :=
  let t := fmul (n 9502) (fmul (n 9501) F64.two (fsqrt (n 9500) A)) alpha
  let Ap := fadd (n 9503) A F64.one
  let Am := fsub (n 9504) A F64.one
  if ftype = 7 then
    [fadd (n 9702) (fadd (n 9701) Ap (fmul (n 9700) Am cw)) t,
     fmul (n 9705) F64.minusTwo (fadd (n 9704) Am (fmul (n 9703) Ap cw)),
     fsub (n 9708) (fadd (n 9707) Ap (fmul (n 9706) Am cw)) t,
     fmul (n 9603) A (fadd (n 9602) (fsub (n 9601) Ap (fmul (n 9600) Am cw)) t),
     fmul (n 9607) (fmul (n 9604) F64.two A) (fsub (n 9606) Am (fmul (n 9605) Ap cw)),
     fmul (n 9611) A (fsub (n 9610) (fsub (n 9609) Ap (fmul (n 9608) Am cw)) t)]
  else
    [fadd (n 9814) (fsub (n 9813) Ap (fmul (n 9812) Am cw)) t,
     fmul (n 9817) F64.two (fsub (n 9816) Am (fmul (n 9815) Ap cw)),
     if P.hsA2 = .omits then fsub (n 9901) Ap (fmul (n 9900) Am cw)
     else fsub (n 9904) (fsub (n 9903) Ap (fmul (n 9902) Am cw)) t,
     fmul (n 9803) A (fadd (n 9802) (fadd (n 9801) Ap (fmul (n 9800) Am cw)) t),
     fmul (n 9807) (fmul (n 9804) F64.minusTwo A) (fadd (n 9806) Am (fmul (n 9805) Ap cw)),
     fmul (n 9811) A (fsub (n 9810) (fadd (n 9809) Ap (fmul (n 9808) Am cw)) t)]

/-- The a- and b-terms of R107 for the codes 6 and 9 to 15. -/
def listingPeaking (n : Nat → Binary64) (cw A alpha : Binary64) : List Binary64 :=
  [fadd (n 9401) F64.one (fdiv (n 9400) alpha A), fmul (n 9402) F64.minusTwo cw,
   fsub (n 9404) F64.one (fdiv (n 9403) alpha A), fadd (n 9406) F64.one (fmul (n 9405) alpha A),
   fmul (n 9407) F64.minusTwo cw, fsub (n 9409) F64.one (fmul (n 9408) alpha A)]

/-- The sign flip and the normalization of R107 on `[a0, a1, a2, b0, b1, b2]`. -/
def listingFinish (n : Nat → Binary64) (norm : Bool) : List Binary64 → List Binary64
  | [d, a1, a2, b0, b1, b2] =>
    if norm then
      [fdiv (n 10205) d d, fdiv (n 10204) (F64.neg a1) d, fdiv (n 10203) (F64.neg a2) d,
       fdiv (n 10202) b0 d, fdiv (n 10201) b1 d, fdiv (n 10200) b2 d]
    else [d, F64.neg a1, F64.neg a2, b0, b1, b2]
  | _ => []

/-- `Derive` as rule R107 lists it, on integer codes. -/
def deriveListing (P : Params) (n : Nat → Binary64) (f g fs qv : Binary64) (ftype qopt : Nat) (norm : Bool) :
    List Binary64 :=
  let w0 := fdiv (n 8102) (fmul (n 8101) (fmul (n 8100) F64.two P.pi) f) fs
  let A := if ftype ≤ 5 then P.pow F64.ten (fdiv (n 8200) g F64.twenty)
    else P.pow F64.ten (fdiv (n 8201) g F64.forty)
  let sw := P.sin w0
  let cw := P.cos w0
  let alpha :=
    if qopt = 0 then fdiv (n 8401) sw (fmul (n 8400) F64.two qv)
    else if qopt = 2 then
      fmul (n 8508) (fdiv (n 8500) sw F64.two)
        (fsqrt (n 8507)
          (fadd (n 8506)
            (fmul (n 8505) (fadd (n 8502) A (fdiv (n 8501) F64.one A))
              (fsub (n 8504) (fdiv (n 8503) F64.one qv) F64.one))
            F64.two))
    else
      fmul (n 8604) sw
        (P.sinh (fmul (n 8603) (fmul (n 8601) (fdiv (n 8600) P.ln2 F64.two) qv) (fdiv (n 8602) w0 sw)))
  listingFinish n norm
    (if ftype ≤ 5 then listingPlain n ftype sw cw alpha
     else if ftype = 7 ∨ ftype = 8 then listingShelf P n ftype cw A alpha
     else listingPeaking n cw A alpha)

/-- The six coefficients in the order of R18, as a list. -/
def Six.toList {α : Type} (c : Six α) : List α := [c.a0, c.a1, c.a2, c.b0, c.b1, c.b2]

/-- `Quantize` as rule R132 lists it, to an integer in `[0, 2^24 - 1]`. -/
def quantizeListing (P : Params) (x : Binary64) : Nat :=
  match F64.mul x F64.scale with
  | none => P.qNonfinite.toNat
  | some v =>
    if F64.isInf v then P.qNonfinite.toNat
    else
      let k := F64.units v / 2 ^ 1074
      if (k < -2147483648 ∨ k > 2147483647) ∧ P.qWide = .zero then 0
      else (k % 16777216).toNat

end Sys2Proof.Machine
end

