-- ==== Sys2Proof/Safety.lean ====
section
/-! DEFINITION. The terms that claims are stated in: the consistency of a state, what of a state two states share,
what a host must respect, and when a binary64 is the correct rounding of an exact value. -/

namespace Sys2Proof.Machine

/-- The relations between the pieces of the state that every step keeps: `DONE` and `ERR` are never both 1, neither is
1 while a command is in flight (R68, R149), and the snapshot in flight equals the live registers (R150). -/
def State.Inv (s : State) : Prop :=
  (s.done && s.err) = false ∧
  ∀ p, s.pend = some p → s.done = false ∧ s.err = false ∧ p.snap = s.snapshot

/-- The completion step is the next step: it is the engine's turn. -/
def State.engineDue (s : State) : Prop := ∃ p, s.pend = some p ∧ p.turns = 0

/-- `PEND` as the spec has it (R31): the command and its snapshot. -/
def State.inFlight (s : State) : Option (Kind × Snapshot) := s.pend.map (fun p => (p.kind, p.snap))

/-- The input registers of `t` are those of `s` (R21, R22). -/
def sameInputs (s t : State) : Prop :=
  t.ctrl = s.ctrl ∧ t.freq = s.freq ∧ t.gain = s.gain ∧ t.srate = s.srate ∧ t.qval = s.qval

/-- The result registers of `t` are those of `s` (R24 to R26). -/
def sameResults (s t : State) : Prop := t.coefR = s.coefR ∧ t.coefQ = s.coefQ ∧ t.pack = s.pack

/-- No piece of the block's state (R31) differs. -/
def sameBlock (s t : State) : Prop :=
  sameInputs s t ∧ sameResults s t ∧ t.done = s.done ∧ t.err = s.err ∧ t.inFlight = s.inFlight

/-- The host's side of the interface is the same. -/
def sameHost (s t : State) : Prop := t.host = s.host ∧ t.seen = s.seen ∧ t.policy = s.policy

/-- The host's next line breaks one of the hazard rules: while a command is in flight, a write of a writable register
(R185, R187) or a read of a result register (R186). -/
def State.hazard (s : State) : Prop :=
  s.busy = true ∧ ∃ r rest,
    (∃ v, s.host = wr r v :: rest ∧ r.readOnly = false) ∨ (s.host = rd r :: rest ∧ r.isResult = true)

/-- Equal, or both NaN: equality up to the NaN pattern, which R11 leaves free. -/
def F64.eqUpToNaN (x y : Binary64) : Prop := x = y ∨ (F64.isNaN x = true ∧ F64.isNaN y = true)

/-- A supply of quiet NaN patterns, one for each operation (R11). -/
def quietSupply (n : Nat → Binary64) : Prop := ∀ k, ∃ d, n k = F64.quietNaN d

/-- The magnitude, in units, from which on a value rounds to an infinity: `2^1024 - 2^970`. -/
def F64.overflowUnits : Nat := (2 ^ 54 - 1) * 2 ^ 2044

/-- `r` is the binary64 nearest to the exact value `num / den` units of 2^-1074, a tie going to the even significand;
a value that rounds past the largest finite one is an infinity of its sign (R15: round to nearest, ties to even). -/
def F64.RoundsTo (num : Int) (den : Nat) (r : Binary64) : Prop :=
  (F64.isFinite r = true ∧ num.natAbs < F64.overflowUnits * den ∧
    ∀ z, F64.isFinite z = true →
      (F64.units r * den - num).natAbs ≤ (F64.units z * den - num).natAbs ∧
      ((F64.units r * den - num).natAbs = (F64.units z * den - num).natAbs → F64.units z ≠ F64.units r →
        r.getLsbD 0 = false)) ∨
  (F64.isInf r = true ∧ F64.overflowUnits * den ≤ num.natAbs ∧ F64.sign r = decide (num < 0))

end Sys2Proof.Machine
end

