-- ==== Sys2Proof/Certificates/Slice0/Obligations.lean ====
section
/-! DEFINITION. The statements for the provers. Each docstring names the rule or the section it formalises. -/

section

open Sys2Proof Sys2Proof.Machine
open Sys2Proof.Config (Params)

/-! ### Encoding -/

/-- The command words of the table "Command decode" of 95_test_vectors.md. -/
def Obligations.DecodesWrittenWords : Prop :=
  decode 0x00000000#32 = .runReal ∧ decode 0x00000001#32 = .runFixed ∧ decode 0x00000002#32 = .runBytes ∧
  decode 0x00000100#32 = .convReal ∧ decode 0x00000101#32 = .convFixed ∧ decode 0x00000102#32 = .convBytes ∧
  decode 0x00000003#32 = .invalidSel 3#8 false ∧ decode 0x00000103#32 = .invalidSel 3#8 true ∧
  decode 0x000000FF#32 = .invalidSel 255#8 false ∧ decode 0x00000200#32 = .runReal ∧
  decode 0xFFFFFE02#32 = .runBytes ∧ decode 0xFFFFFF01#32 = .convFixed ∧ decode 0x80000080#32 = .invalidSel 128#8 false

/-- R77, with `sel` and `conv` as numbers, and the canonical words. -/
def Obligations.DecodeByFields : Prop :=
  (∀ v : Word,
    (2 < v.toNat % 256 → decode v = .invalidSel (BitVec.ofNat 8 v.toNat) (decide (v.toNat / 256 % 2 = 1))) ∧
    (v.toNat / 256 % 2 = 0 →
      (v.toNat % 256 = 0 → decode v = .runReal) ∧ (v.toNat % 256 = 1 → decode v = .runFixed) ∧
      (v.toNat % 256 = 2 → decode v = .runBytes)) ∧
    (v.toNat / 256 % 2 = 1 →
      (v.toNat % 256 = 0 → decode v = .convReal) ∧ (v.toNat % 256 = 1 → decode v = .convFixed) ∧
      (v.toNat % 256 = 2 → decode v = .convBytes))) ∧
  encode .runReal = 0x00000000#32 ∧ encode .runFixed = 0x00000001#32 ∧ encode .runBytes = 0x00000002#32 ∧
  encode .convReal = 0x00000100#32 ∧ encode .convFixed = 0x00000101#32 ∧ encode .convBytes = 0x00000102#32

/-- Decoding the encoded word of a well-formed instruction gives the instruction back, with every operand. -/
def Obligations.EncodeDecode : Prop :=
  ∀ i : Instr, i.wellFormed = true → decode (encode i) = i ∧ decodeBytes (bytesOfWord (encode i)) = .ok i

/-- Every word decodes to a well-formed instruction whose encoding is the word with its ignored bits zero (R76). -/
def Obligations.DecodeEncode : Prop :=
  ∀ v : Word, (decode v).wellFormed = true ∧ encode (decode v) = v &&& 0x000001FF#32

/-- Each word falls under exactly one row of opcode_table.json, and the row names what the word decodes to. -/
def Obligations.OpcodeTableSplitsTheWords : Prop :=
  ∀ v : Word, ∃ r, opcodeTable.filter (fun r => r.matches v) = [r] ∧ r.mnemonic = (decode v).mnemonic

/-- R76: what a write of `CTRL` keeps, what a command word is decoded from, what `STATUS` reads as. -/
def Obligations.ReservedBits : Prop :=
  (∀ (s : State) (v : Word), (storeReg .ctrl v s).value .ctrl = v &&& 0x0000F13F#32) ∧
  (∀ v w : Word, (∀ i, i < 9 → v.getLsbD i = w.getLsbD i) → decode v = decode w) ∧
  (∀ (s : State) (i : Nat), 3 ≤ i → (s.value .status).getLsbD i = false)

/-! ### The register window -/

/-- The offsets and the accesses (RW, RO, WO) of the table of R41, and the offsets it leaves unmapped: `STATUS`,
`COEF_Q[k]` and `PACK[j]` are the read-only registers, `COEF_R`, `COEF_Q` and `PACK` the result registers (R24 to R26),
and `CMD`, which is write-only, reads 0. -/
def Obligations.RegisterMap : Prop :=
  (∀ off : Offset, ∀ r : Reg, Reg.atOffset off = some r ↔ r.offset = off) ∧
  Reg.offset .ctrl = 0x000#8 ∧ Reg.offset .cmd = 0x004#8 ∧ Reg.offset .status = 0x008#8 ∧
  Reg.offset (.param .freq .lo) = 0x010#8 ∧ Reg.offset (.param .freq .hi) = 0x014#8 ∧
  Reg.offset (.param .gain .lo) = 0x018#8 ∧ Reg.offset (.param .gain .hi) = 0x01C#8 ∧
  Reg.offset (.param .srate .lo) = 0x020#8 ∧ Reg.offset (.param .srate .hi) = 0x024#8 ∧
  Reg.offset (.param .qval .lo) = 0x028#8 ∧ Reg.offset (.param .qval .hi) = 0x02C#8 ∧
  (∀ k : Coef, (Reg.offset (.coefR k .lo)).toNat = 0x040 + 8 * k.index) ∧
  (∀ k : Coef, (Reg.offset (.coefR k .hi)).toNat = 0x044 + 8 * k.index) ∧
  (∀ k : Coef, (Reg.offset (.coefQ k)).toNat = 0x080 + 4 * k.index) ∧
  (∀ j : Fin 5, (Reg.offset (.pack j)).toNat = 0x0A0 + 4 * j.val) ∧
  (∀ off : Offset, off.toNat % 4 = 0 →
    (Reg.atOffset off = none ↔
      off.toNat = 0x00C ∨ (0x030 ≤ off.toNat ∧ off.toNat ≤ 0x03F) ∨ (0x070 ≤ off.toNat ∧ off.toNat ≤ 0x07F) ∨
      (0x098 ≤ off.toNat ∧ off.toNat ≤ 0x09F) ∨ 0x0B4 ≤ off.toNat)) ∧
  (∀ r : Reg, r.readOnly = true ↔ r = .status ∨ (∃ k, r = .coefQ k) ∨ ∃ j, r = .pack j) ∧
  (∀ r : Reg, r.isResult = true ↔ (∃ k h, r = .coefR k h) ∨ (∃ k, r = .coefQ k) ∨ ∃ j, r = .pack j) ∧
  (∀ s : State, s.value .cmd = 0x00000000#32)

/-- R42, R43, R44: an access of another width, a misaligned one and one to an unmapped offset are answered with a bus
error, reads and writes alike: the step stops with that fault, or the host has the error response and the block is
unchanged. -/
def Obligations.BusErrors : Prop :=
  ∀ (s : State) (op : HostOp) (w : Width) (off : Offset) (rest : List HostOp) (f : Fault),
    ¬ s.engineDue → s.host = op :: rest → (op = .read w off ∨ ∃ v, op = .write w off v) →
    ((w ≠ .w32 ∧ f = .busWidth off) ∨ (w = .w32 ∧ off.toNat % 4 ≠ 0 ∧ f = .busMisaligned off) ∨
      (w = .w32 ∧ off.toNat % 4 = 0 ∧ (∀ r : Reg, r.offset ≠ off) ∧ f = .busUnmapped off)) →
    step s = .fault f ∨
      ∃ t, step s = .next t ∧ sameBlock s t ∧ t.host = rest ∧ t.seen = .busError f :: s.seen ∧ t.policy = s.policy

/-- What the platform does with a bus error (R162 leaves it to the platform; the two policies are the model's choice, log
entry 8): it stops with the fault, or records the response and goes on with the block unchanged. -/
def Obligations.BusErrorPolicies : Prop :=
  ∀ (s : State) (op : HostOp) (w : Width) (off : Offset) (rest : List HostOp) (f : Fault),
    ¬ s.engineDue → s.host = op :: rest → (op = .read w off ∨ ∃ v, op = .write w off v) →
    ((w ≠ .w32 ∧ f = .busWidth off) ∨ (w = .w32 ∧ off.toNat % 4 ≠ 0 ∧ f = .busMisaligned off) ∨
      (w = .w32 ∧ off.toNat % 4 = 0 ∧ (∀ r : Reg, r.offset ≠ off) ∧ f = .busUnmapped off)) →
    (s.policy = .stops → step s = .fault f) ∧
    (s.policy = .records →
      ∃ t, step s = .next t ∧ sameBlock s t ∧ t.host = rest ∧ t.seen = .busError f :: s.seen ∧ t.policy = s.policy)

/-- R45: what a read at a mapped offset returns, with no side effect on the block; the word of a result register read
while busy is not constrained. -/
def Obligations.ReadReturns : Prop :=
  ∀ (s : State) (r : Reg) (rest : List HostOp), ¬ s.engineDue → s.host = rd r :: rest →
    ∃ t v, step s = .next t ∧ sameBlock s t ∧ t.host = rest ∧ t.policy = s.policy ∧ t.seen = .data v :: s.seen ∧
      (r.isResult = false ∨ s.busy = false →
        match r with
        | .ctrl => v.toNat = s.ctrl.quirk.toNat * 2 ^ 12 + s.ctrl.norm.toNat * 2 ^ 8 + s.ctrl.qopt.toNat * 2 ^ 4
            + s.ctrl.ftype.toNat
        | .cmd => v = 0x00000000#32
        | .status => v.toNat = s.err.toNat * 4 + s.done.toNat * 2 + s.busy.toNat
        | .param p .lo => v.toNat = (s.param p).toNat % 2 ^ 32
        | .param p .hi => v.toNat = (s.param p).toNat / 2 ^ 32
        | .coefR k .lo => v.toNat = (s.coefR.get k).toNat % 2 ^ 32
        | .coefR k .hi => v.toNat = (s.coefR.get k).toNat / 2 ^ 32
        | .coefQ k => v.toNat = (s.coefQ.get k).toNat
        | .pack j => v.toNat = (packedByte s.pack (4 * j.val + 3)).toNat * 2 ^ 24
            + (packedByte s.pack (4 * j.val + 2)).toNat * 2 ^ 16 + (packedByte s.pack (4 * j.val + 1)).toNat * 2 ^ 8
            + (packedByte s.pack (4 * j.val)).toNat)

/-- R46: what a write at a mapped offset does. -/
def Obligations.WriteStores : Prop :=
  ∀ (s : State) (r : Reg) (v : Word) (rest : List HostOp), ¬ s.engineDue → s.host = wr r v :: rest →
    (r = .cmd → s.busy = false → step s = exec (decode v) ((s.setHost rest).receive .written)) ∧
    (r ≠ .cmd ∨ s.busy = true →
      ∃ t, step s = .next t ∧ t.host = rest ∧ t.policy = s.policy ∧ t.seen = .written :: s.seen ∧
        (r.readOnly = true ∨ s.busy = true → sameBlock s t) ∧
        (r.readOnly = false → s.busy = false →
          t.done = s.done ∧ t.err = s.err ∧ t.inFlight = s.inFlight ∧ t.coefQ = s.coefQ ∧ t.pack = s.pack ∧
          (r = .ctrl → t.ctrl = ⟨v.extractLsb' 0 4, v.extractLsb' 4 2, v.getLsbD 8, v.extractLsb' 12 4⟩ ∧
            (∀ q, t.param q = s.param q) ∧ t.coefR = s.coefR) ∧
          (∀ p h, r = .param p h → t.ctrl = s.ctrl ∧ t.coefR = s.coefR ∧ (∀ q, q ≠ p → t.param q = s.param q) ∧
            (h = .lo → (t.param p).toNat = (s.param p).toNat / 2 ^ 32 * 2 ^ 32 + v.toNat) ∧
            (h = .hi → (t.param p).toNat = v.toNat * 2 ^ 32 + (s.param p).toNat % 2 ^ 32)) ∧
          (∀ k h, r = .coefR k h → t.ctrl = s.ctrl ∧ (∀ q, t.param q = s.param q) ∧
            (∀ l, l ≠ k → t.coefR.get l = s.coefR.get l) ∧
            (h = .lo → (t.coefR.get k).toNat = (s.coefR.get k).toNat / 2 ^ 32 * 2 ^ 32 + v.toNat) ∧
            (h = .hi → (t.coefR.get k).toNat = v.toNat * 2 ^ 32 + (s.coefR.get k).toNat % 2 ^ 32))))

/-- Through the window: a register written while the block is idle reads back as written (`CTRL` without its reserved
bits), and every other register, down to each byte of its word, reads as before. -/
def Obligations.WriteFrame : Prop :=
  ∀ (s t : State) (r : Reg) (v : Word) (rest : List HostOp),
    s.busy = false → r.readOnly = false → r ≠ .cmd → s.host = wr r v :: rest → step s = .next t →
    t.value r = (if r = .ctrl then v &&& 0x0000F13F#32 else v) ∧
    (∀ r', r' ≠ r → t.value r' = s.value r') ∧
    (∀ off : Offset, off.toNat / 4 ≠ r.offset.toNat / 4 → t.windowByte off = s.windowByte off)

/-- The two words of a binary64 register written in either order leave the same state of the block, with the whole
value in the register (R48, R69). -/
def Obligations.EitherWordOrder : Prop :=
  ∀ (s : State) (x : WideReg) (v : Binary64), s.busy = false →
    ∃ t u,
      Sys2Proof.core.run 2 (s.setHost (wr64 x v)) = .next t ∧
      Sys2Proof.core.run 2 (s.setHost (wr64 x v).reverse) = .next u ∧ t = u ∧
      (match x with
        | .param p => t.param p = v
        | .coefR k => t.coefR.get k = v)

/-- Byte `i` of the window at a register's offset is bits `[8i+7:8i]` of what it reads as (R48). -/
def Obligations.WindowBytes : Prop :=
  ∀ (s : State) (r : Reg) (i : Nat), i < 4 →
    ∃ b, s.windowByte (BitVec.ofNat 8 (r.offset.toNat + i)) = some b ∧ b.toNat = (s.value r).toNat / 2 ^ (8 * i) % 256

/-- An access outside the 256-byte window does not reach the block; one inside reaches it at its offset (R5, R40): it
joins the lines of the host, which name offsets (that form of it is the model's, log entry 2). -/
def Obligations.WindowAddresses : Prop :=
  (∀ (base addr : Nat) (line : Offset → HostOp) (s : State),
    addr < base ∨ base + 256 ≤ addr → issueAt base addr line s = s) ∧
  (∀ (base : Nat) (off : Offset), windowOffset base (base + off.toNat) = some off) ∧
  (∀ (base : Nat) (off : Offset) (line : Offset → HostOp) (s : State),
    issueAt base (base + off.toNat) line s = s.setHost (s.host ++ [line off]))

/-! ### The step -/

/-- A step runs the decoded command word: at the host's write of `CMD` to an idle block (R46, R140, R148), and at the
engine's completion (R149); with nothing to do it waits, and a turn of a waiting host is one before completion. That
one `exec` holds both transitions of a command, and that the step calls it at both places (clauses 1, 2 and 5), is the
model's choice (log entry 11), as are the turns of a waiting host (log entry 4) and `withFetchWord` (log entry 10). -/
def Obligations.StepRunsTheCommand : Prop :=
  (∀ (s : State) (v : Word) (rest : List HostOp), s.pend = none → s.host = wr .cmd v :: rest →
    step s = exec (decode v) ((s.setHost rest).receive .written)) ∧
  (∀ (s : State) (p : InFlight), s.pend = some p → p.turns = 0 → step s = exec p.kind.instr s) ∧
  (∀ s : State, s.pend = none → s.host = [] → step s = .next s) ∧
  (∀ (s : State) (k : Kind) (S : Snapshot) (m : Nat), s.pend = some ⟨k, S, m + 1⟩ → s.host = [] →
    step s = .next (s.setPend (some ⟨k, S, m⟩))) ∧
  (∀ (s : State) (nbits w : Nat), step (s.withFetchWord nbits w) =
    exec (decode (BitVec.ofNat 32 (w % 2 ^ nbits))) ((s.setPend none).receive .written))

/-! ### Commands -/

/-- R140: a valid command word written to an idle block is accepted, with the snapshot of R150. -/
def Obligations.Acceptance : Prop :=
  ∀ (s : State) (k : Kind) (v : Word) (rest : List HostOp),
    s.pend = none → s.host = wr .cmd v :: rest → decode v = k.instr →
    ∃ t p, step s = .next t ∧ t.pend = some p ∧ p.kind = k ∧
      p.snap = ⟨s.ctrl, s.freq, s.gain, s.srate, s.qval, s.coefR⟩ ∧ t.busy = true ∧
      t.done = false ∧ t.err = false ∧ sameInputs s t ∧ sameResults s t ∧ t.host = rest ∧ t.policy = s.policy

/-- The same of `exec`, for each of the six valid commands. -/
def Obligations.ExecAccepts : Prop :=
  ∀ (s : State) (k : Kind), s.pend = none →
    ∃ t p, exec k.instr s = .next t ∧ t.pend = some p ∧ p.kind = k ∧ p.snap = s.snapshot ∧
      t.done = false ∧ t.err = false ∧ sameInputs s t ∧ sameResults s t ∧ sameHost s t

/-- R141: a write of `CMD` while a command is in flight is ignored, whatever word it writes, and no bus error is
returned. -/
def Obligations.CommandWhileBusyIgnored : Prop :=
  ∀ (s : State) (v : Word) (rest : List HostOp), s.busy = true → ¬ s.engineDue → s.host = wr .cmd v :: rest →
    ∃ t, step s = .next t ∧ sameBlock s t ∧ t.host = rest ∧ t.seen = .written :: s.seen ∧ t.policy = s.policy

/-- R148: a word with an invalid selector written to an idle block sets `ERR`, clears `DONE` and changes nothing
else. -/
def Obligations.Rejection : Prop :=
  (∀ (s : State) (v : Word) (rest : List HostOp), s.pend = none → s.host = wr .cmd v :: rest → 2 < v.toNat % 256 →
    ∃ t, step s = .next t ∧ t.err = true ∧ t.done = false ∧ t.pend = none ∧ sameInputs s t ∧ sameResults s t ∧
      t.host = rest ∧ t.seen = .written :: s.seen ∧ t.policy = s.policy) ∧
  (∀ (s : State) (sel : BitVec 8) (conv : Bool), s.pend = none →
    ∃ t, exec (.invalidSel sel conv) s = .next t ∧ t.err = true ∧ t.done = false ∧ t.pend = none ∧
      sameInputs s t ∧ sameResults s t ∧ sameHost s t)

/-- R142: RUN_REAL. -/
def Obligations.RunRealCompletes : Prop :=
  decode 0x00000000#32 = .runReal ∧ encode .runReal = 0x00000000#32 ∧
  ∀ (s : State) (S : Snapshot), s.pend = some ⟨.runReal, S, 0⟩ →
    ∃ n t, quietSupply n ∧ exec .runReal s = .next t ∧
      t.coefR = derive Config.params n S ∧ t.coefQ = s.coefQ ∧ t.pack = s.pack ∧
      t.pend = none ∧ t.done = true ∧ t.err = s.err ∧ sameInputs s t ∧ sameHost s t

/-- R143: RUN_FIXED. -/
def Obligations.RunFixedCompletes : Prop :=
  decode 0x00000001#32 = .runFixed ∧ encode .runFixed = 0x00000001#32 ∧
  ∀ (s : State) (S : Snapshot), s.pend = some ⟨.runFixed, S, 0⟩ →
    ∃ n t, quietSupply n ∧ exec .runFixed s = .next t ∧
      t.coefR = derive Config.params n S ∧
      (∀ k, t.coefQ.get k = quantize Config.params (t.coefR.get k)) ∧ t.pack = s.pack ∧
      t.pend = none ∧ t.done = true ∧ t.err = s.err ∧ sameInputs s t ∧ sameHost s t

/-- R144: RUN_BYTES. -/
def Obligations.RunBytesCompletes : Prop :=
  decode 0x00000002#32 = .runBytes ∧ encode .runBytes = 0x00000002#32 ∧
  ∀ (s : State) (S : Snapshot), s.pend = some ⟨.runBytes, S, 0⟩ →
    ∃ n t, quietSupply n ∧ exec .runBytes s = .next t ∧
      t.coefR = derive Config.params n S ∧
      (∀ k, t.coefQ.get k = quantize Config.params (t.coefR.get k)) ∧
      (∀ j : Fin 5, t.value (.pack j) = packWord (packBytes Config.params t.coefR) j.val) ∧
      (t.value (.pack 4)).toNat < 2 ^ 16 ∧
      t.pend = none ∧ t.done = true ∧ t.err = s.err ∧ sameInputs s t ∧ sameHost s t

/-- R145: CONV_REAL. -/
def Obligations.ConvRealCompletes : Prop :=
  decode 0x00000100#32 = .convReal ∧ encode .convReal = 0x00000100#32 ∧
  ∀ (s : State) (S : Snapshot), s.pend = some ⟨.convReal, S, 0⟩ →
    ∃ t, exec .convReal s = .next t ∧ sameResults s t ∧
      t.pend = none ∧ t.done = true ∧ t.err = s.err ∧ sameInputs s t ∧ sameHost s t

/-- R146: CONV_FIXED. -/
def Obligations.ConvFixedCompletes : Prop :=
  decode 0x00000101#32 = .convFixed ∧ encode .convFixed = 0x00000101#32 ∧
  ∀ (s : State) (S : Snapshot), s.pend = some ⟨.convFixed, S, 0⟩ →
    ∃ t, exec .convFixed s = .next t ∧
      (∀ k, t.coefQ.get k = quantize Config.params (S.coefR.get k)) ∧ t.coefR = s.coefR ∧ t.pack = s.pack ∧
      t.pend = none ∧ t.done = true ∧ t.err = s.err ∧ sameInputs s t ∧ sameHost s t

/-- R147: CONV_BYTES. -/
def Obligations.ConvBytesCompletes : Prop :=
  decode 0x00000102#32 = .convBytes ∧ encode .convBytes = 0x00000102#32 ∧
  ∀ (s : State) (S : Snapshot), s.pend = some ⟨.convBytes, S, 0⟩ →
    ∃ t, exec .convBytes s = .next t ∧
      (∀ k, t.coefQ.get k = quantize Config.params (S.coefR.get k)) ∧
      (∀ j : Fin 5, t.value (.pack j) = packWord (packBytes Config.params S.coefR) j.val) ∧
      (t.value (.pack 4)).toNat < 2 ^ 16 ∧ t.coefR = s.coefR ∧
      t.pend = none ∧ t.done = true ∧ t.err = s.err ∧ sameInputs s t ∧ sameHost s t

/-- R149: the completion step never fails; it clears `PEND` and sets `DONE`, leaves `ERR`, the inputs and the host's
side, and for a command that packs, `PACK` holds the bytes of the `COEF_Q` it wrote. -/
def Obligations.CompletionStep : Prop :=
  ∀ s : State, s.engineDue →
    ∃ t, step s = .next t ∧ t.pend = none ∧ t.busy = false ∧ t.done = true ∧ t.err = s.err ∧
      sameInputs s t ∧ sameHost s t ∧
      (∀ p, s.pend = some p → p.kind = .runBytes ∨ p.kind = .convBytes → ∀ k, t.pack.get k = tripleOf (t.coefQ.get k))

/-- Nothing stops a command: `exec` answers a next state for every instruction, state and operand (R105, R149, R161). -/
def Obligations.ExecNeverStops : Prop := ∀ (i : Instr) (s : State), ∃ t, exec i s = .next t

/-- The frame of every command, whichever of its phases runs. -/
def Obligations.ExecFrame : Prop :=
  ∀ (i : Instr) (s t : State), exec i s = .next t →
    sameInputs s t ∧ sameHost s t ∧
    (∀ r : Reg, r.isResult = false → r ≠ .status → t.value r = s.value r) ∧
    (t.coefR ≠ s.coefR → i = .runReal ∨ i = .runFixed ∨ i = .runBytes) ∧
    (t.coefQ ≠ s.coefQ → i = .runFixed ∨ i = .runBytes ∨ i = .convFixed ∨ i = .convBytes) ∧
    (t.pack ≠ s.pack → i = .runBytes ∨ i = .convBytes) ∧
    (¬ s.engineDue → sameResults s t)

/-! ### The derivation stage -/

/-- R107: the staged derivation is the listing. -/
def Obligations.DeriveIsTheListing : Prop :=
  ∀ (P : Params) (n : Nat → Binary64) (S : Snapshot),
    (derive P n S).toList =
      deriveListing P n S.freq S.gain S.srate S.qval S.ctrl.ftype.toNat S.ctrl.qopt.toNat S.ctrl.norm

/-- R72, R73, R74: the unrecognized codes act as Peaking, Bandwidth and NoQuirk, and read back as written. -/
def Obligations.UnrecognizedCodes : Prop :=
  (∀ (P : Params) (n : Nat → Binary64) (S : Snapshot) (c : BitVec 4), 9 ≤ c.toNat →
    derive P n { S with ctrl := { S.ctrl with ftype := c } } =
      derive P n { S with ctrl := { S.ctrl with ftype := 6#4 } }) ∧
  (∀ (P : Params) (n : Nat → Binary64) (S : Snapshot),
    derive P n { S with ctrl := { S.ctrl with qopt := 3#2 } } =
      derive P n { S with ctrl := { S.ctrl with qopt := 1#2 } }) ∧
  (∀ (P : Params) (n : Nat → Binary64) (S : Snapshot) (c : BitVec 4),
    derive P n { S with ctrl := { S.ctrl with quirk := c } } =
      derive P n { S with ctrl := { S.ctrl with quirk := 0#4 } }) ∧
  (∀ (s : State) (v : Word),
    ((storeReg .ctrl v s).value .ctrl).extractLsb' 0 4 = v.extractLsb' 0 4 ∧
    ((storeReg .ctrl v s).value .ctrl).extractLsb' 4 2 = v.extractLsb' 4 2 ∧
    ((storeReg .ctrl v s).value .ctrl).extractLsb' 12 4 = v.extractLsb' 12 4)

/-- R100: the stored `a1` and `a2` are the raw ones negated, the other four are the raw ones; negation flips the sign
bit of every encoding and nothing else, and is exact on finite values. -/
def Obligations.SignFlip : Prop :=
  (∀ (P : Params) (n : Nat → Binary64) (S : Snapshot), S.ctrl.norm = false →
    ∀ w0 raw, w0 = angularFrequency P n S.freq S.srate →
    raw = rawCoefficients P n (filterType S.ctrl.ftype) (P.sin w0) (P.cos w0)
      (amplitude P n (filterType S.ctrl.ftype) S.gain)
      (alphaOf P n (qOption S.ctrl.qopt) (P.sin w0) w0 (amplitude P n (filterType S.ctrl.ftype) S.gain) S.qval) →
    (derive P n S).a1 = F64.neg raw.a1 ∧ (derive P n S).a2 = F64.neg raw.a2 ∧ (derive P n S).a0 = raw.a0 ∧
    (derive P n S).b0 = raw.b0 ∧ (derive P n S).b1 = raw.b1 ∧ (derive P n S).b2 = raw.b2) ∧
  (∀ x : Binary64, F64.sign (F64.neg x) = !F64.sign x ∧ (∀ i, i ≠ 63 → (F64.neg x).getLsbD i = x.getLsbD i) ∧
    F64.units (F64.neg x) = -F64.units x)

/-- With `NORM` = 1 and a finite non-zero `a0` before normalization, the result `a0` is exactly 1.0 (R102; S2 of
95_test_vectors.md). -/
def Obligations.NormalizedA0IsOne : Prop :=
  ∀ (P : Params) (n : Nat → Binary64) (S : Snapshot), S.ctrl.norm = true →
    F64.isFinite (unnormalized P n S).a0 = true → F64.isZero (unnormalized P n S).a0 = false →
    (derive P n S).a0 = 0x3FF0000000000000#64

/-- A selection of the relations among the stored coefficients that the corner cases of R88 to R94 give, up to the NaN
pattern that R11 leaves free. Normalized or not: `b2` is `b0` (R88, R89, R92), `-b0` (R90, R91), `a0` for AllPass, whose
`b0` is `-a2` (R93), and `b1` is `-a1` (R92 to R94). `b1` of the two band-pass types is `+0.0`, after normalization a
zero with the sign of `a0` (R90, R91); the normalized `b2` of AllPass is 1.0 (R93). The `b1` of R88 and R89 stands in
CosineTermsDouble. -/
def Obligations.CoefficientRelations : Prop :=
  ∀ (P : Params) (n : Nat → Binary64) (S : Snapshot) (c : Six Binary64), quietSupply n → c = derive P n S →
    (S.ctrl.ftype.toNat ≤ 1 → F64.eqUpToNaN c.b2 c.b0) ∧
    (S.ctrl.ftype.toNat = 2 ∨ S.ctrl.ftype.toNat = 3 → F64.eqUpToNaN c.b2 (F64.neg c.b0)) ∧
    (S.ctrl.ftype.toNat = 4 → F64.eqUpToNaN c.b2 c.b0) ∧
    (4 ≤ S.ctrl.ftype.toNat → S.ctrl.ftype.toNat ≠ 7 → S.ctrl.ftype.toNat ≠ 8 →
      F64.eqUpToNaN c.b1 (F64.neg c.a1)) ∧
    (S.ctrl.ftype.toNat = 5 → F64.eqUpToNaN c.b2 c.a0 ∧ F64.eqUpToNaN c.b0 (F64.neg c.a2) ∧
      (S.ctrl.norm = true → F64.isFinite (unnormalized P n S).a0 = true →
        F64.isZero (unnormalized P n S).a0 = false → c.b2 = 0x3FF0000000000000#64)) ∧
    (S.ctrl.ftype.toNat = 2 ∨ S.ctrl.ftype.toNat = 3 →
      (S.ctrl.norm = false → c.b1 = 0x0000000000000000#64) ∧
      (S.ctrl.norm = true → F64.isNaN (unnormalized P n S).a0 = false → F64.isZero (unnormalized P n S).a0 = false →
        c.b1 = if F64.sign (unnormalized P n S).a0 then 0x8000000000000000#64 else 0x0000000000000000#64))

/-- R106: two evaluations of `Derive` on the same inputs differ in the bit patterns of NaN results alone, and quantize to
the same words, where `P_SIN`, `P_COS`, `P_SINH` and the power of 10.0, the only base `Derive` uses, give a NaN for a
NaN operand. -/
def Obligations.DeterministicUpToNaN : Prop :=
  ∀ (P : Params) (n m : Nat → Binary64) (S : Snapshot),
    (∀ x, F64.isNaN x = true → F64.isNaN (P.sin x) = true ∧ F64.isNaN (P.cos x) = true ∧
      F64.isNaN (P.sinh x) = true ∧ F64.isNaN (P.pow F64.ten x) = true) →
    quietSupply n → quietSupply m →
    ∀ k, F64.eqUpToNaN ((derive P n S).get k) ((derive P m S).get k) ∧
      quantize P ((derive P n S).get k) = quantize P ((derive P m S).get k)

/-- R184: a derive command on the reset values gives NaN in every coefficient, and `P_QNONFINITE` in every quantized
one, where `P_SIN` and `P_COS` give a NaN for a NaN operand. -/
def Obligations.ResetValuesDeriveNaN : Prop :=
  ∀ (P : Params) (n : Nat → Binary64),
    (∀ x, F64.isNaN x = true → F64.isNaN (P.sin x) = true ∧ F64.isNaN (P.cos x) = true) → quietSupply n →
    ∀ k, F64.isNaN ((derive P n State.reset.snapshot).get k) = true ∧
      quantize P ((derive P n State.reset.snapshot).get k) = P.qNonfinite

/-! ### Binary64 arithmetic (R15) -/

/-- The sum of two finite values is their exact sum rounded to nearest, ties to even; an exact sum of zero is `-0` only
for two negative operands, and an overflow is an infinity (IEEE 754; log entry 13). -/
def Obligations.AddRounds : Prop :=
  ∀ x y : Binary64, F64.isFinite x = true → F64.isFinite y = true →
    ∃ r, F64.add x y = some r ∧ F64.RoundsTo (F64.units x + F64.units y) 1 r ∧
      (F64.units x + F64.units y = 0 → F64.sign r = (F64.sign x && F64.sign y))

/-- The product of two finite values is their exact product rounded to nearest, ties to even; its sign, underflow and
overflow are those of IEEE 754 (log entry 13). -/
def Obligations.MulRounds : Prop :=
  ∀ x y : Binary64, F64.isFinite x = true → F64.isFinite y = true →
    ∃ r, F64.mul x y = some r ∧ F64.RoundsTo (F64.units x * F64.units y) (2 ^ 1074) r ∧
      F64.sign r = (F64.sign x != F64.sign y)

/-- The quotient of two finite values, the second not zero, is their exact quotient rounded to nearest, ties to even;
its sign, underflow and overflow are those of IEEE 754 (log entry 13). -/
def Obligations.DivRounds : Prop :=
  ∀ x y : Binary64, F64.isFinite x = true → F64.isFinite y = true → F64.isZero y = false →
    ∃ r, F64.div x y = some r ∧
      F64.RoundsTo (F64.units x * 2 ^ 1074 * (F64.units y).sign) (F64.mag y) r ∧
      F64.sign r = (F64.sign x != F64.sign y)

/-- The root of a positive finite value is correctly rounded: no binary64 lies nearer to the exact root, said by where
the exact root lies from each midpoint. -/
def Obligations.SqrtRounds : Prop :=
  ∀ x : Binary64, F64.isFinite x = true → 0 < F64.units x →
    ∃ r, F64.sqrt x = some r ∧ F64.isFinite r = true ∧ F64.sign r = false ∧
      ∀ z, F64.isFinite z = true → F64.sign z = false →
        (F64.units r < F64.units z → 4 * (F64.units x * 2 ^ 1074) ≤ (F64.units r + F64.units z) ^ 2) ∧
        (F64.units z < F64.units r → (F64.units r + F64.units z) ^ 2 ≤ 4 * (F64.units x * 2 ^ 1074))

/-- Infinities, zeros and NaNs propagate as IEEE 754 has it (R15, R161; log entry 13). -/
def Obligations.SpecialValues : Prop :=
  ∀ x y : Binary64,
    (F64.isNaN x = true ∨ F64.isNaN y = true →
      F64.add x y = none ∧ F64.sub x y = none ∧ F64.mul x y = none ∧ F64.div x y = none) ∧
    (F64.isNaN x = true → F64.sqrt x = none) ∧
    (F64.isInf x = true → F64.isInf y = true →
      (F64.add x y = if F64.sign x = F64.sign y then some x else none) ∧
      (F64.sub x y = if F64.sign x = F64.sign y then none else some x) ∧
      (∃ r, F64.mul x y = some r ∧ F64.isInf r = true ∧ F64.sign r = (F64.sign x != F64.sign y)) ∧
      F64.div x y = none) ∧
    (F64.isInf x = true → F64.isFinite y = true → F64.add x y = some x ∧ F64.add y x = some x ∧
      F64.sub x y = some x ∧ F64.sub y x = some (F64.neg x) ∧
      (F64.isZero y = true → F64.mul x y = none ∧ F64.mul y x = none) ∧
      (F64.isZero y = false → ∃ r, F64.mul x y = some r ∧ F64.mul y x = some r ∧ F64.isInf r = true ∧
        F64.sign r = (F64.sign x != F64.sign y)) ∧
      (∃ r, F64.div x y = some r ∧ F64.isInf r = true ∧ F64.sign r = (F64.sign x != F64.sign y)) ∧
      (∃ r, F64.div y x = some r ∧ F64.isZero r = true ∧ F64.sign r = (F64.sign x != F64.sign y))) ∧
    (F64.isZero x = true → F64.isZero y = true → F64.div x y = none) ∧
    (F64.isFinite x = true → F64.isZero x = false → F64.isZero y = true →
      ∃ r, F64.div x y = some r ∧ F64.isInf r = true ∧ F64.sign r = (F64.sign x != F64.sign y)) ∧
    (F64.isZero x = true → F64.sqrt x = some x) ∧
    (F64.isNaN x = false → F64.isZero x = false → F64.sign x = true → F64.sqrt x = none) ∧
    (F64.isInf x = true → F64.sign x = false → F64.sqrt x = some x)

/-! ### The quantizer and packer stage -/

/-- R132: the quantizer and the packer are the listing. -/
def Obligations.QuantizeIsTheListing : Prop :=
  (∀ (P : Params) (x : Binary64), (quantize P x).toNat = quantizeListing P x) ∧
  (∀ (P : Params) (c : Six Binary64) (k : Coef), (quantize6 P c).get k = quantize P (c.get k)) ∧
  (∀ (P : Params) (c : Six Binary64) (k : Coef),
    (packedByte (packBytes P c) (3 * k.index)).toNat = (quantize P (c.get k)).toNat % 256 ∧
    (packedByte (packBytes P c) (3 * k.index + 1)).toNat = (quantize P (c.get k)).toNat / 256 % 256 ∧
    (packedByte (packBytes P c) (3 * k.index + 2)).toNat = (quantize P (c.get k)).toNat / 65536)

/-- Scaling by `2^22` is exact below `2^1002`: the product is finite, has the sign of `x` and is `x * 2^22` (R121); so
the quantizer masks the floor of the exact product (R122). -/
def Obligations.ScalingIsExact : Prop :=
  ∀ (P : Params) (x : Binary64), F64.isFinite x = true → F64.mag x < 2 ^ 2076 →
    (∃ v, F64.mul x F64.scale = some v ∧ F64.isFinite v = true ∧ F64.sign v = F64.sign x ∧
      F64.units v = F64.units x * 2 ^ 22) ∧
    quantize P x = maskInteger P (F64.units x * 2 ^ 22 / 2 ^ 1074)

/-- R123: a NaN, an infinity, and a finite value of magnitude `2^1002` or more give `P_QNONFINITE`, which is `0x000000`
in this hardware. -/
def Obligations.NonfiniteValues : Prop :=
  (∀ (P : Params) (x : Binary64),
    F64.isNaN x = true ∨ F64.isInf x = true ∨ (F64.isFinite x = true ∧ 2 ^ 2076 ≤ F64.mag x) →
    quantize P x = P.qNonfinite) ∧
  Config.params.qNonfinite = 0x000000#24

/-- R124, R125: the word of the integer `k` that R122 gives, under both values of `P_QWIDE`. -/
def Obligations.WideAndMasked : Prop :=
  ∀ (P : Params) (k : Int),
    (-(2 ^ 31) ≤ k → k ≤ 2 ^ 31 - 1 → ((maskInteger P k).toNat : Int) = k % 2 ^ 24) ∧
    (k < -(2 ^ 31) ∨ 2 ^ 31 - 1 < k →
      (P.qWide = .wrap → ((maskInteger P k).toNat : Int) = k % 2 ^ 24) ∧
      (P.qWide = .zero → maskInteger P k = 0x000000#24))

/-- R127: for `-2 ≤ x < 2` the word read as two's complement is `floor (x * 2^22)`, within `2^-22` below `x`. -/
def Obligations.SignedReading : Prop :=
  ∀ (P : Params) (x : Binary64), F64.isFinite x = true →
    -(2 * 2 ^ 1074) ≤ F64.units x → F64.units x < 2 * 2 ^ 1074 →
    (quantize P x).toInt = F64.units x * 2 ^ 22 / 2 ^ 1074 ∧
    -(2 ^ 23) ≤ (quantize P x).toInt ∧ (quantize P x).toInt ≤ 2 ^ 23 - 1 ∧
    0 ≤ F64.units x - (quantize P x).toInt * 2 ^ 1052 ∧ F64.units x - (quantize P x).toInt * 2 ^ 1052 < 2 ^ 1052

/-- R130: the three bytes of a coefficient make up its 24-bit word. -/
def Obligations.ByteDecomposition : Prop :=
  ∀ (P : Params) (c : Six Binary64) (k : Coef),
    (packedByte (packBytes P c) (3 * k.index)).setWidth 24
      ||| ((packedByte (packBytes P c) (3 * k.index + 1)).setWidth 24 <<< 8)
      ||| ((packedByte (packBytes P c) (3 * k.index + 2)).setWidth 24 <<< 16) = (quantize6 P c).get k

/-- R71: the five packed words, byte by byte. -/
def Obligations.PackedWords : Prop :=
  ∀ p : Six Triple,
    packWord p 0 = p.a1.low ++ p.a0.high ++ p.a0.mid ++ p.a0.low ∧
    packWord p 1 = p.a2.mid ++ p.a2.low ++ p.a1.high ++ p.a1.mid ∧
    packWord p 2 = p.b0.high ++ p.b0.mid ++ p.b0.low ++ p.a2.high ∧
    packWord p 3 = p.b2.low ++ p.b1.high ++ p.b1.mid ++ p.b1.low ∧
    packWord p 4 = 0x00#8 ++ 0x00#8 ++ p.b2.high ++ p.b2.mid

/-! ### Reset, and the whole machine -/

/-- R30: every piece of state after reset. -/
def Obligations.ResetValues : Prop :=
  State.reset.value .ctrl = 0x00000100#32 ∧ (∀ p, State.reset.param p = 0#64) ∧
  (∀ k, State.reset.coefR.get k = 0#64) ∧ (∀ k, State.reset.coefQ.get k = 0#24) ∧
  (∀ i, packedByte State.reset.pack i = 0#8) ∧ (∀ j, State.reset.value (.pack j) = 0x00000000#32) ∧
  State.reset.value .status = 0x00000000#32 ∧ State.reset.pend = none

/-- R180: reset sets every piece of the block's state to its reset value, and a command in flight is discarded with none
of its results written. That reset is a line among the host's, taken when no completion is due, and that the host's
lines, responses and policy stay is the model's choice (log entry 15). -/
def Obligations.ResetDiscards : Prop :=
  ∀ (s : State) (rest : List HostOp), ¬ s.engineDue → s.host = .reset :: rest →
    ∃ t, step s = .next t ∧ sameBlock State.reset t ∧ t.pend = none ∧ t.host = rest ∧ t.seen = s.seen ∧
      t.policy = s.policy

/-- The consistency relations hold after reset. -/
def Obligations.ResetIsConsistent : Prop := State.reset.Inv

/-- Every step keeps them: `DONE`, `ERR` and `BUSY` exclude each other (R68), and the snapshot in flight equals the live
registers (R150). -/
def Obligations.StepKeepsConsistency : Prop := ∀ s t : State, s.Inv → step s = .next t → t.Inv

/-- R164: `ERR` stays 1 until a valid command word is accepted, or reset. -/
def Obligations.ErrorStays : Prop :=
  ∀ s t : State, s.err = true → step s = .next t → t.err = false →
    (∃ rest, s.host = .reset :: rest) ∨
    (∃ v rest k, s.pend = none ∧ s.host = wr .cmd v :: rest ∧ decode v = Kind.instr k)

/-- Only a completion or reset changes `COEF_Q` and `PACK`, and only these, or an idle block's host, change `COEF_R`
(R24 to R26, R186). -/
def Obligations.ResultsAreStable : Prop :=
  ∀ s t : State, step s = .next t → ¬ s.engineDue → (∀ rest, s.host ≠ .reset :: rest) →
    t.coefQ = s.coefQ ∧ t.pack = s.pack ∧
    (t.coefR ≠ s.coefR → s.busy = false ∧ ∃ k h v rest, s.host = wr (.coefR k h) v :: rest)

/-- R187: while a command is in flight no step but reset changes an input register, and none but its completion or
reset changes `COEF_R`. -/
def Obligations.FrozenWhileBusy : Prop :=
  ∀ s t : State, s.busy = true → step s = .next t → (∀ rest, s.host ≠ .reset :: rest) →
    sameInputs s t ∧ (¬ s.engineDue → sameBlock s t)

/-- A host whose next line breaks none of the hazard rules R185 to R187 loses nothing: its write of a writable register
takes effect, its command word is presented, and its read is exact. -/
def Obligations.HazardFreeHostLosesNothing : Prop :=
  ∀ (s : State) (r : Reg) (rest : List HostOp), ¬ s.engineDue → ¬ s.hazard →
    (∀ v, s.host = wr r v :: rest → r.readOnly = false →
      (r = .cmd → step s = exec (decode v) ((s.setHost rest).receive .written)) ∧
      (r ≠ .cmd → ∃ t, step s = .next t ∧ t.value r = (if r = .ctrl then v &&& 0x0000F13F#32 else v))) ∧
    (s.host = rd r :: rest → ∃ t, step s = .next t ∧ t.seen = .data (s.value r) :: s.seen)

/-- R188: the completion step is taken, whatever the host does: a command in flight is complete, or discarded by reset,
after its host turns and one step (finite in number, log entry 4), on a platform that goes on after a bus error (log
entry 8). -/
def Obligations.CompletionIsTaken : Prop :=
  ∀ (s : State) (p : InFlight), s.pend = some p → s.policy = .records →
    ∃ j t, j ≤ p.turns + 1 ∧ Sys2Proof.core.run j s = .next t ∧ t.pend = none ∧
      (.reset ∉ s.host → t.done = true)

/-- The number of host turns before completion is not seen in the results: with a waiting host, every count leads to the
state that no wait leads to (R149, R188). -/
def Obligations.LatencyIsNotSeen : Prop :=
  ∀ (s : State) (k : Kind) (S : Snapshot) (m : Nat), s.pend = some ⟨k, S, m⟩ → s.host = [] →
    Sys2Proof.core.run (m + 1) s = step (s.setPend (some ⟨k, S, 0⟩))

/-- `POLL` ends (R79, R188): from every state the poll of a host is over after finitely many steps, with the block idle
and the last word read saying so; that the host turns before completion are finite in number is log entry 4. -/
def Obligations.PollEnds : Prop :=
  ∀ (s : State) (rest : List HostOp), s.host = .poll :: rest →
    ∃ j t v, Sys2Proof.core.run j s = .next t ∧ t.host = rest ∧ t.busy = false ∧
      t.seen.head? = some (.data v) ∧ v.getLsbD 0 = false ∧ sameInputs s t

/-! ### The derivation stage, continued -/

/-- Without normalization the `b1` of LowPass is exactly `2 * b0` (R88) and that of HighPass exactly `-2 * b0` (R89):
the product rounds to it, infinities and NaNs (up to the pattern that R11 leaves free) included, and on finite values
it is the exact product. -/
def Obligations.CosineTermsDouble : Prop :=
  ∀ (P : Params) (n : Nat → Binary64) (S : Snapshot) (c : Six Binary64) (m : Binary64),
    quietSupply n → F64.isNaN m = true → S.ctrl.norm = false → c = derive P n S →
    (S.ctrl.ftype.toNat = 0 → F64.eqUpToNaN c.b1 (fmul m F64.two c.b0) ∧
      (F64.isFinite c.b1 = true → F64.isFinite c.b0 = true ∧ F64.units c.b1 = 2 * F64.units c.b0)) ∧
    (S.ctrl.ftype.toNat = 1 → F64.eqUpToNaN c.b1 (fmul m F64.minusTwo c.b0) ∧
      (F64.isFinite c.b1 = true → F64.isFinite c.b0 = true ∧ F64.units c.b1 = -2 * F64.units c.b0))

end
end

