-- ==== Sys2Proof/Laws/State.lean ====
section
/-! SUPPORT. One lemma per field per update of the state, so that no proof unfolds a record update. -/

namespace Sys2Proof.Machine

section updates

variable (s : State)

@[simp] theorem State.setCtrl_ctrl (c : Ctrl) : (s.setCtrl c).ctrl = c := rfl
@[simp] theorem State.setCtrl_freq (c : Ctrl) : (s.setCtrl c).freq = s.freq := rfl
@[simp] theorem State.setCtrl_gain (c : Ctrl) : (s.setCtrl c).gain = s.gain := rfl
@[simp] theorem State.setCtrl_srate (c : Ctrl) : (s.setCtrl c).srate = s.srate := rfl
@[simp] theorem State.setCtrl_qval (c : Ctrl) : (s.setCtrl c).qval = s.qval := rfl
@[simp] theorem State.setCtrl_coefR (c : Ctrl) : (s.setCtrl c).coefR = s.coefR := rfl
@[simp] theorem State.setCtrl_coefQ (c : Ctrl) : (s.setCtrl c).coefQ = s.coefQ := rfl
@[simp] theorem State.setCtrl_pack (c : Ctrl) : (s.setCtrl c).pack = s.pack := rfl
@[simp] theorem State.setCtrl_done (c : Ctrl) : (s.setCtrl c).done = s.done := rfl
@[simp] theorem State.setCtrl_err (c : Ctrl) : (s.setCtrl c).err = s.err := rfl
@[simp] theorem State.setCtrl_pend (c : Ctrl) : (s.setCtrl c).pend = s.pend := rfl
@[simp] theorem State.setCtrl_host (c : Ctrl) : (s.setCtrl c).host = s.host := rfl
@[simp] theorem State.setCtrl_seen (c : Ctrl) : (s.setCtrl c).seen = s.seen := rfl
@[simp] theorem State.setCtrl_policy (c : Ctrl) : (s.setCtrl c).policy = s.policy := rfl
@[simp] theorem State.setCtrl_draws (c : Ctrl) : (s.setCtrl c).draws = s.draws := rfl

@[simp] theorem State.setCoefR_ctrl (c : Six Binary64) : (s.setCoefR c).ctrl = s.ctrl := rfl
@[simp] theorem State.setCoefR_freq (c : Six Binary64) : (s.setCoefR c).freq = s.freq := rfl
@[simp] theorem State.setCoefR_gain (c : Six Binary64) : (s.setCoefR c).gain = s.gain := rfl
@[simp] theorem State.setCoefR_srate (c : Six Binary64) : (s.setCoefR c).srate = s.srate := rfl
@[simp] theorem State.setCoefR_qval (c : Six Binary64) : (s.setCoefR c).qval = s.qval := rfl
@[simp] theorem State.setCoefR_coefR (c : Six Binary64) : (s.setCoefR c).coefR = c := rfl
@[simp] theorem State.setCoefR_coefQ (c : Six Binary64) : (s.setCoefR c).coefQ = s.coefQ := rfl
@[simp] theorem State.setCoefR_pack (c : Six Binary64) : (s.setCoefR c).pack = s.pack := rfl
@[simp] theorem State.setCoefR_done (c : Six Binary64) : (s.setCoefR c).done = s.done := rfl
@[simp] theorem State.setCoefR_err (c : Six Binary64) : (s.setCoefR c).err = s.err := rfl
@[simp] theorem State.setCoefR_pend (c : Six Binary64) : (s.setCoefR c).pend = s.pend := rfl
@[simp] theorem State.setCoefR_host (c : Six Binary64) : (s.setCoefR c).host = s.host := rfl
@[simp] theorem State.setCoefR_seen (c : Six Binary64) : (s.setCoefR c).seen = s.seen := rfl
@[simp] theorem State.setCoefR_policy (c : Six Binary64) : (s.setCoefR c).policy = s.policy := rfl
@[simp] theorem State.setCoefR_draws (c : Six Binary64) : (s.setCoefR c).draws = s.draws := rfl

@[simp] theorem State.setCoefQ_ctrl (c : Six Q24) : (s.setCoefQ c).ctrl = s.ctrl := rfl
@[simp] theorem State.setCoefQ_freq (c : Six Q24) : (s.setCoefQ c).freq = s.freq := rfl
@[simp] theorem State.setCoefQ_gain (c : Six Q24) : (s.setCoefQ c).gain = s.gain := rfl
@[simp] theorem State.setCoefQ_srate (c : Six Q24) : (s.setCoefQ c).srate = s.srate := rfl
@[simp] theorem State.setCoefQ_qval (c : Six Q24) : (s.setCoefQ c).qval = s.qval := rfl
@[simp] theorem State.setCoefQ_coefR (c : Six Q24) : (s.setCoefQ c).coefR = s.coefR := rfl
@[simp] theorem State.setCoefQ_coefQ (c : Six Q24) : (s.setCoefQ c).coefQ = c := rfl
@[simp] theorem State.setCoefQ_pack (c : Six Q24) : (s.setCoefQ c).pack = s.pack := rfl
@[simp] theorem State.setCoefQ_done (c : Six Q24) : (s.setCoefQ c).done = s.done := rfl
@[simp] theorem State.setCoefQ_err (c : Six Q24) : (s.setCoefQ c).err = s.err := rfl
@[simp] theorem State.setCoefQ_pend (c : Six Q24) : (s.setCoefQ c).pend = s.pend := rfl
@[simp] theorem State.setCoefQ_host (c : Six Q24) : (s.setCoefQ c).host = s.host := rfl
@[simp] theorem State.setCoefQ_seen (c : Six Q24) : (s.setCoefQ c).seen = s.seen := rfl
@[simp] theorem State.setCoefQ_policy (c : Six Q24) : (s.setCoefQ c).policy = s.policy := rfl
@[simp] theorem State.setCoefQ_draws (c : Six Q24) : (s.setCoefQ c).draws = s.draws := rfl

@[simp] theorem State.setPack_ctrl (c : Six Triple) : (s.setPack c).ctrl = s.ctrl := rfl
@[simp] theorem State.setPack_freq (c : Six Triple) : (s.setPack c).freq = s.freq := rfl
@[simp] theorem State.setPack_gain (c : Six Triple) : (s.setPack c).gain = s.gain := rfl
@[simp] theorem State.setPack_srate (c : Six Triple) : (s.setPack c).srate = s.srate := rfl
@[simp] theorem State.setPack_qval (c : Six Triple) : (s.setPack c).qval = s.qval := rfl
@[simp] theorem State.setPack_coefR (c : Six Triple) : (s.setPack c).coefR = s.coefR := rfl
@[simp] theorem State.setPack_coefQ (c : Six Triple) : (s.setPack c).coefQ = s.coefQ := rfl
@[simp] theorem State.setPack_pack (c : Six Triple) : (s.setPack c).pack = c := rfl
@[simp] theorem State.setPack_done (c : Six Triple) : (s.setPack c).done = s.done := rfl
@[simp] theorem State.setPack_err (c : Six Triple) : (s.setPack c).err = s.err := rfl
@[simp] theorem State.setPack_pend (c : Six Triple) : (s.setPack c).pend = s.pend := rfl
@[simp] theorem State.setPack_host (c : Six Triple) : (s.setPack c).host = s.host := rfl
@[simp] theorem State.setPack_seen (c : Six Triple) : (s.setPack c).seen = s.seen := rfl
@[simp] theorem State.setPack_policy (c : Six Triple) : (s.setPack c).policy = s.policy := rfl
@[simp] theorem State.setPack_draws (c : Six Triple) : (s.setPack c).draws = s.draws := rfl

@[simp] theorem State.setStatus_ctrl (d e : Bool) : (s.setStatus d e).ctrl = s.ctrl := rfl
@[simp] theorem State.setStatus_freq (d e : Bool) : (s.setStatus d e).freq = s.freq := rfl
@[simp] theorem State.setStatus_gain (d e : Bool) : (s.setStatus d e).gain = s.gain := rfl
@[simp] theorem State.setStatus_srate (d e : Bool) : (s.setStatus d e).srate = s.srate := rfl
@[simp] theorem State.setStatus_qval (d e : Bool) : (s.setStatus d e).qval = s.qval := rfl
@[simp] theorem State.setStatus_coefR (d e : Bool) : (s.setStatus d e).coefR = s.coefR := rfl
@[simp] theorem State.setStatus_coefQ (d e : Bool) : (s.setStatus d e).coefQ = s.coefQ := rfl
@[simp] theorem State.setStatus_pack (d e : Bool) : (s.setStatus d e).pack = s.pack := rfl
@[simp] theorem State.setStatus_done (d e : Bool) : (s.setStatus d e).done = d := rfl
@[simp] theorem State.setStatus_err (d e : Bool) : (s.setStatus d e).err = e := rfl
@[simp] theorem State.setStatus_pend (d e : Bool) : (s.setStatus d e).pend = s.pend := rfl
@[simp] theorem State.setStatus_host (d e : Bool) : (s.setStatus d e).host = s.host := rfl
@[simp] theorem State.setStatus_seen (d e : Bool) : (s.setStatus d e).seen = s.seen := rfl
@[simp] theorem State.setStatus_policy (d e : Bool) : (s.setStatus d e).policy = s.policy := rfl
@[simp] theorem State.setStatus_draws (d e : Bool) : (s.setStatus d e).draws = s.draws := rfl

@[simp] theorem State.setPend_ctrl (p : Option InFlight) : (s.setPend p).ctrl = s.ctrl := rfl
@[simp] theorem State.setPend_freq (p : Option InFlight) : (s.setPend p).freq = s.freq := rfl
@[simp] theorem State.setPend_gain (p : Option InFlight) : (s.setPend p).gain = s.gain := rfl
@[simp] theorem State.setPend_srate (p : Option InFlight) : (s.setPend p).srate = s.srate := rfl
@[simp] theorem State.setPend_qval (p : Option InFlight) : (s.setPend p).qval = s.qval := rfl
@[simp] theorem State.setPend_coefR (p : Option InFlight) : (s.setPend p).coefR = s.coefR := rfl
@[simp] theorem State.setPend_coefQ (p : Option InFlight) : (s.setPend p).coefQ = s.coefQ := rfl
@[simp] theorem State.setPend_pack (p : Option InFlight) : (s.setPend p).pack = s.pack := rfl
@[simp] theorem State.setPend_done (p : Option InFlight) : (s.setPend p).done = s.done := rfl
@[simp] theorem State.setPend_err (p : Option InFlight) : (s.setPend p).err = s.err := rfl
@[simp] theorem State.setPend_pend (p : Option InFlight) : (s.setPend p).pend = p := rfl
@[simp] theorem State.setPend_host (p : Option InFlight) : (s.setPend p).host = s.host := rfl
@[simp] theorem State.setPend_seen (p : Option InFlight) : (s.setPend p).seen = s.seen := rfl
@[simp] theorem State.setPend_policy (p : Option InFlight) : (s.setPend p).policy = s.policy := rfl
@[simp] theorem State.setPend_draws (p : Option InFlight) : (s.setPend p).draws = s.draws := rfl

@[simp] theorem State.setHost_ctrl (h : List HostOp) : (s.setHost h).ctrl = s.ctrl := rfl
@[simp] theorem State.setHost_freq (h : List HostOp) : (s.setHost h).freq = s.freq := rfl
@[simp] theorem State.setHost_gain (h : List HostOp) : (s.setHost h).gain = s.gain := rfl
@[simp] theorem State.setHost_srate (h : List HostOp) : (s.setHost h).srate = s.srate := rfl
@[simp] theorem State.setHost_qval (h : List HostOp) : (s.setHost h).qval = s.qval := rfl
@[simp] theorem State.setHost_coefR (h : List HostOp) : (s.setHost h).coefR = s.coefR := rfl
@[simp] theorem State.setHost_coefQ (h : List HostOp) : (s.setHost h).coefQ = s.coefQ := rfl
@[simp] theorem State.setHost_pack (h : List HostOp) : (s.setHost h).pack = s.pack := rfl
@[simp] theorem State.setHost_done (h : List HostOp) : (s.setHost h).done = s.done := rfl
@[simp] theorem State.setHost_err (h : List HostOp) : (s.setHost h).err = s.err := rfl
@[simp] theorem State.setHost_pend (h : List HostOp) : (s.setHost h).pend = s.pend := rfl
@[simp] theorem State.setHost_host (h : List HostOp) : (s.setHost h).host = h := rfl
@[simp] theorem State.setHost_seen (h : List HostOp) : (s.setHost h).seen = s.seen := rfl
@[simp] theorem State.setHost_policy (h : List HostOp) : (s.setHost h).policy = s.policy := rfl
@[simp] theorem State.setHost_draws (h : List HostOp) : (s.setHost h).draws = s.draws := rfl

@[simp] theorem State.receive_ctrl (r : Response) : (s.receive r).ctrl = s.ctrl := rfl
@[simp] theorem State.receive_freq (r : Response) : (s.receive r).freq = s.freq := rfl
@[simp] theorem State.receive_gain (r : Response) : (s.receive r).gain = s.gain := rfl
@[simp] theorem State.receive_srate (r : Response) : (s.receive r).srate = s.srate := rfl
@[simp] theorem State.receive_qval (r : Response) : (s.receive r).qval = s.qval := rfl
@[simp] theorem State.receive_coefR (r : Response) : (s.receive r).coefR = s.coefR := rfl
@[simp] theorem State.receive_coefQ (r : Response) : (s.receive r).coefQ = s.coefQ := rfl
@[simp] theorem State.receive_pack (r : Response) : (s.receive r).pack = s.pack := rfl
@[simp] theorem State.receive_done (r : Response) : (s.receive r).done = s.done := rfl
@[simp] theorem State.receive_err (r : Response) : (s.receive r).err = s.err := rfl
@[simp] theorem State.receive_pend (r : Response) : (s.receive r).pend = s.pend := rfl
@[simp] theorem State.receive_host (r : Response) : (s.receive r).host = s.host := rfl
@[simp] theorem State.receive_seen (r : Response) : (s.receive r).seen = r :: s.seen := rfl
@[simp] theorem State.receive_policy (r : Response) : (s.receive r).policy = s.policy := rfl
@[simp] theorem State.receive_draws (r : Response) : (s.receive r).draws = s.draws := rfl

@[simp] theorem State.nextDraw_ctrl : (s.nextDraw).ctrl = s.ctrl := rfl
@[simp] theorem State.nextDraw_freq : (s.nextDraw).freq = s.freq := rfl
@[simp] theorem State.nextDraw_gain : (s.nextDraw).gain = s.gain := rfl
@[simp] theorem State.nextDraw_srate : (s.nextDraw).srate = s.srate := rfl
@[simp] theorem State.nextDraw_qval : (s.nextDraw).qval = s.qval := rfl
@[simp] theorem State.nextDraw_coefR : (s.nextDraw).coefR = s.coefR := rfl
@[simp] theorem State.nextDraw_coefQ : (s.nextDraw).coefQ = s.coefQ := rfl
@[simp] theorem State.nextDraw_pack : (s.nextDraw).pack = s.pack := rfl
@[simp] theorem State.nextDraw_done : (s.nextDraw).done = s.done := rfl
@[simp] theorem State.nextDraw_err : (s.nextDraw).err = s.err := rfl
@[simp] theorem State.nextDraw_pend : (s.nextDraw).pend = s.pend := rfl
@[simp] theorem State.nextDraw_host : (s.nextDraw).host = s.host := rfl
@[simp] theorem State.nextDraw_seen : (s.nextDraw).seen = s.seen := rfl
@[simp] theorem State.nextDraw_policy : (s.nextDraw).policy = s.policy := rfl
@[simp] theorem State.nextDraw_draws : (s.nextDraw).draws = s.draws + 1 := rfl

@[simp] theorem State.setParam_ctrl (p : Param) (v : Binary64) : (s.setParam p v).ctrl = s.ctrl := by cases p <;> rfl
@[simp] theorem State.setParam_coefR (p : Param) (v : Binary64) : (s.setParam p v).coefR = s.coefR := by cases p <;> rfl
@[simp] theorem State.setParam_coefQ (p : Param) (v : Binary64) : (s.setParam p v).coefQ = s.coefQ := by cases p <;> rfl
@[simp] theorem State.setParam_pack (p : Param) (v : Binary64) : (s.setParam p v).pack = s.pack := by cases p <;> rfl
@[simp] theorem State.setParam_done (p : Param) (v : Binary64) : (s.setParam p v).done = s.done := by cases p <;> rfl
@[simp] theorem State.setParam_err (p : Param) (v : Binary64) : (s.setParam p v).err = s.err := by cases p <;> rfl
@[simp] theorem State.setParam_pend (p : Param) (v : Binary64) : (s.setParam p v).pend = s.pend := by cases p <;> rfl
@[simp] theorem State.setParam_host (p : Param) (v : Binary64) : (s.setParam p v).host = s.host := by cases p <;> rfl
@[simp] theorem State.setParam_seen (p : Param) (v : Binary64) : (s.setParam p v).seen = s.seen := by cases p <;> rfl
@[simp] theorem State.setParam_policy (p : Param) (v : Binary64) : (s.setParam p v).policy = s.policy := by cases p <;> rfl
@[simp] theorem State.setParam_draws (p : Param) (v : Binary64) : (s.setParam p v).draws = s.draws := by cases p <;> rfl

@[simp] theorem State.param_setParam_self (p : Param) (v : Binary64) : (s.setParam p v).param p = v := by cases p <;> rfl

theorem State.param_setParam_of_ne {p q : Param} (h : q ≠ p) (v : Binary64) :
    (s.setParam p v).param q = s.param q := by
  cases p <;> cases q <;> first | rfl | exact absurd rfl h

@[simp] theorem State.setCtrl_param (c : Ctrl) (q : Param) : (s.setCtrl c).param q = s.param q := by cases q <;> rfl
@[simp] theorem State.setCoefR_param (c : Six Binary64) (q : Param) : (s.setCoefR c).param q = s.param q := by cases q <;> rfl
@[simp] theorem State.setCoefQ_param (c : Six Q24) (q : Param) : (s.setCoefQ c).param q = s.param q := by cases q <;> rfl
@[simp] theorem State.setPack_param (c : Six Triple) (q : Param) : (s.setPack c).param q = s.param q := by cases q <;> rfl
@[simp] theorem State.setStatus_param (d e : Bool) (q : Param) : (s.setStatus d e).param q = s.param q := by cases q <;> rfl
@[simp] theorem State.setPend_param (p : Option InFlight) (q : Param) : (s.setPend p).param q = s.param q := by cases q <;> rfl
@[simp] theorem State.setHost_param (h : List HostOp) (q : Param) : (s.setHost h).param q = s.param q := by cases q <;> rfl
@[simp] theorem State.receive_param (r : Response) (q : Param) : (s.receive r).param q = s.param q := by cases q <;> rfl
@[simp] theorem State.nextDraw_param (q : Param) : (s.nextDraw).param q = s.param q := by cases q <;> rfl

@[simp] theorem State.setCtrl_busy (c : Ctrl) : (s.setCtrl c).busy = s.busy := rfl
@[simp] theorem State.setCoefR_busy (c : Six Binary64) : (s.setCoefR c).busy = s.busy := rfl
@[simp] theorem State.setCoefQ_busy (c : Six Q24) : (s.setCoefQ c).busy = s.busy := rfl
@[simp] theorem State.setPack_busy (c : Six Triple) : (s.setPack c).busy = s.busy := rfl
@[simp] theorem State.setStatus_busy (d e : Bool) : (s.setStatus d e).busy = s.busy := rfl
@[simp] theorem State.setPend_busy (p : Option InFlight) : (s.setPend p).busy = p.isSome := rfl
@[simp] theorem State.setHost_busy (h : List HostOp) : (s.setHost h).busy = s.busy := rfl
@[simp] theorem State.receive_busy (r : Response) : (s.receive r).busy = s.busy := rfl
@[simp] theorem State.nextDraw_busy : (s.nextDraw).busy = s.busy := rfl
@[simp] theorem State.setParam_busy (p : Param) (v : Binary64) : (s.setParam p v).busy = s.busy := by cases p <;> rfl

end updates

@[simp] theorem Six.get_set_self {α : Type} (c : Six α) (k : Coef) (x : α) : (c.set k x).get k = x := by
  cases k <;> rfl

theorem Six.get_set_of_ne {α : Type} (c : Six α) {k l : Coef} (h : l ≠ k) (x : α) : (c.set k x).get l = c.get l := by
  cases k <;> cases l <;> first | rfl | exact absurd rfl h

@[simp] theorem Six.get_map {α β : Type} (f : α → β) (c : Six α) (k : Coef) : (c.map f).get k = f (c.get k) := by
  cases k <;> rfl

@[simp] theorem Six.get_fill {α : Type} (x : α) (k : Coef) : (Six.fill x).get k = x := by cases k <;> rfl

/-- Two six-tuples with the same coefficients are equal. -/
theorem Six.ext_get {α : Type} {c d : Six α} (h : ∀ k, c.get k = d.get k) : c = d := by
  cases c; cases d
  have h0 := h .a0; have h1 := h .a1; have h2 := h .a2; have h3 := h .b0; have h4 := h .b1; have h5 := h .b2
  simp_all [Six.get]

/-- Idle means that no command is in flight (R28). -/
theorem State.busy_eq_false_iff (s : State) : s.busy = false ↔ s.pend = none := by
  simp [State.busy]

end Sys2Proof.Machine
end

