-- ==== Sys2Proof/Laws/Commands.lean ====
section
/-! SUPPORT. One lemma per field per shared update of a command, so that no proof unfolds acceptance, completion,
rejection or reset. -/

namespace Sys2Proof.Machine

variable (s : State)

@[simp] theorem accept_ctrl (k : Kind) : (accept k s).ctrl = s.ctrl := rfl
@[simp] theorem accept_freq (k : Kind) : (accept k s).freq = s.freq := rfl
@[simp] theorem accept_gain (k : Kind) : (accept k s).gain = s.gain := rfl
@[simp] theorem accept_srate (k : Kind) : (accept k s).srate = s.srate := rfl
@[simp] theorem accept_qval (k : Kind) : (accept k s).qval = s.qval := rfl
@[simp] theorem accept_coefR (k : Kind) : (accept k s).coefR = s.coefR := rfl
@[simp] theorem accept_coefQ (k : Kind) : (accept k s).coefQ = s.coefQ := rfl
@[simp] theorem accept_pack (k : Kind) : (accept k s).pack = s.pack := rfl
@[simp] theorem accept_done (k : Kind) : (accept k s).done = false := rfl
@[simp] theorem accept_err (k : Kind) : (accept k s).err = false := rfl
@[simp] theorem accept_pend (k : Kind) : (accept k s).pend = some ⟨k, s.snapshot, Config.hostTurns s.draws⟩ := rfl
@[simp] theorem accept_host (k : Kind) : (accept k s).host = s.host := rfl
@[simp] theorem accept_seen (k : Kind) : (accept k s).seen = s.seen := rfl
@[simp] theorem accept_policy (k : Kind) : (accept k s).policy = s.policy := rfl
@[simp] theorem accept_draws (k : Kind) : (accept k s).draws = s.draws + 1 := rfl

@[simp] theorem finish_ctrl : (finish s).ctrl = s.ctrl := rfl
@[simp] theorem finish_freq : (finish s).freq = s.freq := rfl
@[simp] theorem finish_gain : (finish s).gain = s.gain := rfl
@[simp] theorem finish_srate : (finish s).srate = s.srate := rfl
@[simp] theorem finish_qval : (finish s).qval = s.qval := rfl
@[simp] theorem finish_coefR : (finish s).coefR = s.coefR := rfl
@[simp] theorem finish_coefQ : (finish s).coefQ = s.coefQ := rfl
@[simp] theorem finish_pack : (finish s).pack = s.pack := rfl
@[simp] theorem finish_done : (finish s).done = true := rfl
@[simp] theorem finish_err : (finish s).err = s.err := rfl
@[simp] theorem finish_pend : (finish s).pend = none := rfl
@[simp] theorem finish_host : (finish s).host = s.host := rfl
@[simp] theorem finish_seen : (finish s).seen = s.seen := rfl
@[simp] theorem finish_policy : (finish s).policy = s.policy := rfl
@[simp] theorem finish_draws : (finish s).draws = s.draws + 1 := rfl

@[simp] theorem State.statusAccepted_ctrl : (s.statusAccepted).ctrl = s.ctrl := rfl
@[simp] theorem State.statusAccepted_freq : (s.statusAccepted).freq = s.freq := rfl
@[simp] theorem State.statusAccepted_gain : (s.statusAccepted).gain = s.gain := rfl
@[simp] theorem State.statusAccepted_srate : (s.statusAccepted).srate = s.srate := rfl
@[simp] theorem State.statusAccepted_qval : (s.statusAccepted).qval = s.qval := rfl
@[simp] theorem State.statusAccepted_coefR : (s.statusAccepted).coefR = s.coefR := rfl
@[simp] theorem State.statusAccepted_coefQ : (s.statusAccepted).coefQ = s.coefQ := rfl
@[simp] theorem State.statusAccepted_pack : (s.statusAccepted).pack = s.pack := rfl
@[simp] theorem State.statusAccepted_done : (s.statusAccepted).done = false := rfl
@[simp] theorem State.statusAccepted_err : (s.statusAccepted).err = false := rfl
@[simp] theorem State.statusAccepted_pend : (s.statusAccepted).pend = s.pend := rfl
@[simp] theorem State.statusAccepted_host : (s.statusAccepted).host = s.host := rfl
@[simp] theorem State.statusAccepted_seen : (s.statusAccepted).seen = s.seen := rfl
@[simp] theorem State.statusAccepted_policy : (s.statusAccepted).policy = s.policy := rfl
@[simp] theorem State.statusAccepted_draws : (s.statusAccepted).draws = s.draws := rfl

@[simp] theorem State.statusRejected_ctrl : (s.statusRejected).ctrl = s.ctrl := rfl
@[simp] theorem State.statusRejected_freq : (s.statusRejected).freq = s.freq := rfl
@[simp] theorem State.statusRejected_gain : (s.statusRejected).gain = s.gain := rfl
@[simp] theorem State.statusRejected_srate : (s.statusRejected).srate = s.srate := rfl
@[simp] theorem State.statusRejected_qval : (s.statusRejected).qval = s.qval := rfl
@[simp] theorem State.statusRejected_coefR : (s.statusRejected).coefR = s.coefR := rfl
@[simp] theorem State.statusRejected_coefQ : (s.statusRejected).coefQ = s.coefQ := rfl
@[simp] theorem State.statusRejected_pack : (s.statusRejected).pack = s.pack := rfl
@[simp] theorem State.statusRejected_done : (s.statusRejected).done = false := rfl
@[simp] theorem State.statusRejected_err : (s.statusRejected).err = true := rfl
@[simp] theorem State.statusRejected_pend : (s.statusRejected).pend = s.pend := rfl
@[simp] theorem State.statusRejected_host : (s.statusRejected).host = s.host := rfl
@[simp] theorem State.statusRejected_seen : (s.statusRejected).seen = s.seen := rfl
@[simp] theorem State.statusRejected_policy : (s.statusRejected).policy = s.policy := rfl
@[simp] theorem State.statusRejected_draws : (s.statusRejected).draws = s.draws := rfl

@[simp] theorem State.statusCompleted_ctrl : (s.statusCompleted).ctrl = s.ctrl := rfl
@[simp] theorem State.statusCompleted_freq : (s.statusCompleted).freq = s.freq := rfl
@[simp] theorem State.statusCompleted_gain : (s.statusCompleted).gain = s.gain := rfl
@[simp] theorem State.statusCompleted_srate : (s.statusCompleted).srate = s.srate := rfl
@[simp] theorem State.statusCompleted_qval : (s.statusCompleted).qval = s.qval := rfl
@[simp] theorem State.statusCompleted_coefR : (s.statusCompleted).coefR = s.coefR := rfl
@[simp] theorem State.statusCompleted_coefQ : (s.statusCompleted).coefQ = s.coefQ := rfl
@[simp] theorem State.statusCompleted_pack : (s.statusCompleted).pack = s.pack := rfl
@[simp] theorem State.statusCompleted_done : (s.statusCompleted).done = true := rfl
@[simp] theorem State.statusCompleted_err : (s.statusCompleted).err = s.err := rfl
@[simp] theorem State.statusCompleted_pend : (s.statusCompleted).pend = s.pend := rfl
@[simp] theorem State.statusCompleted_host : (s.statusCompleted).host = s.host := rfl
@[simp] theorem State.statusCompleted_seen : (s.statusCompleted).seen = s.seen := rfl
@[simp] theorem State.statusCompleted_policy : (s.statusCompleted).policy = s.policy := rfl
@[simp] theorem State.statusCompleted_draws : (s.statusCompleted).draws = s.draws := rfl

@[simp] theorem writeDerived_ctrl (S : Snapshot) : (writeDerived S s).ctrl = s.ctrl := rfl
@[simp] theorem writeDerived_freq (S : Snapshot) : (writeDerived S s).freq = s.freq := rfl
@[simp] theorem writeDerived_gain (S : Snapshot) : (writeDerived S s).gain = s.gain := rfl
@[simp] theorem writeDerived_srate (S : Snapshot) : (writeDerived S s).srate = s.srate := rfl
@[simp] theorem writeDerived_qval (S : Snapshot) : (writeDerived S s).qval = s.qval := rfl
@[simp] theorem writeDerived_coefR (S : Snapshot) : (writeDerived S s).coefR = derivedOf S s := rfl
@[simp] theorem writeDerived_coefQ (S : Snapshot) : (writeDerived S s).coefQ = s.coefQ := rfl
@[simp] theorem writeDerived_pack (S : Snapshot) : (writeDerived S s).pack = s.pack := rfl
@[simp] theorem writeDerived_done (S : Snapshot) : (writeDerived S s).done = s.done := rfl
@[simp] theorem writeDerived_err (S : Snapshot) : (writeDerived S s).err = s.err := rfl
@[simp] theorem writeDerived_pend (S : Snapshot) : (writeDerived S s).pend = s.pend := rfl
@[simp] theorem writeDerived_host (S : Snapshot) : (writeDerived S s).host = s.host := rfl
@[simp] theorem writeDerived_seen (S : Snapshot) : (writeDerived S s).seen = s.seen := rfl
@[simp] theorem writeDerived_policy (S : Snapshot) : (writeDerived S s).policy = s.policy := rfl
@[simp] theorem writeDerived_draws (S : Snapshot) : (writeDerived S s).draws = s.draws := rfl

@[simp] theorem writeQuantized_ctrl (c : Six Binary64) : (writeQuantized c s).ctrl = s.ctrl := rfl
@[simp] theorem writeQuantized_freq (c : Six Binary64) : (writeQuantized c s).freq = s.freq := rfl
@[simp] theorem writeQuantized_gain (c : Six Binary64) : (writeQuantized c s).gain = s.gain := rfl
@[simp] theorem writeQuantized_srate (c : Six Binary64) : (writeQuantized c s).srate = s.srate := rfl
@[simp] theorem writeQuantized_qval (c : Six Binary64) : (writeQuantized c s).qval = s.qval := rfl
@[simp] theorem writeQuantized_coefR (c : Six Binary64) : (writeQuantized c s).coefR = s.coefR := rfl
@[simp] theorem writeQuantized_coefQ (c : Six Binary64) : (writeQuantized c s).coefQ = quantize6 Config.params c := rfl
@[simp] theorem writeQuantized_pack (c : Six Binary64) : (writeQuantized c s).pack = s.pack := rfl
@[simp] theorem writeQuantized_done (c : Six Binary64) : (writeQuantized c s).done = s.done := rfl
@[simp] theorem writeQuantized_err (c : Six Binary64) : (writeQuantized c s).err = s.err := rfl
@[simp] theorem writeQuantized_pend (c : Six Binary64) : (writeQuantized c s).pend = s.pend := rfl
@[simp] theorem writeQuantized_host (c : Six Binary64) : (writeQuantized c s).host = s.host := rfl
@[simp] theorem writeQuantized_seen (c : Six Binary64) : (writeQuantized c s).seen = s.seen := rfl
@[simp] theorem writeQuantized_policy (c : Six Binary64) : (writeQuantized c s).policy = s.policy := rfl
@[simp] theorem writeQuantized_draws (c : Six Binary64) : (writeQuantized c s).draws = s.draws := rfl

@[simp] theorem writePacked_ctrl (c : Six Binary64) : (writePacked c s).ctrl = s.ctrl := rfl
@[simp] theorem writePacked_freq (c : Six Binary64) : (writePacked c s).freq = s.freq := rfl
@[simp] theorem writePacked_gain (c : Six Binary64) : (writePacked c s).gain = s.gain := rfl
@[simp] theorem writePacked_srate (c : Six Binary64) : (writePacked c s).srate = s.srate := rfl
@[simp] theorem writePacked_qval (c : Six Binary64) : (writePacked c s).qval = s.qval := rfl
@[simp] theorem writePacked_coefR (c : Six Binary64) : (writePacked c s).coefR = s.coefR := rfl
@[simp] theorem writePacked_coefQ (c : Six Binary64) : (writePacked c s).coefQ = s.coefQ := rfl
@[simp] theorem writePacked_pack (c : Six Binary64) : (writePacked c s).pack = packBytes Config.params c := rfl
@[simp] theorem writePacked_done (c : Six Binary64) : (writePacked c s).done = s.done := rfl
@[simp] theorem writePacked_err (c : Six Binary64) : (writePacked c s).err = s.err := rfl
@[simp] theorem writePacked_pend (c : Six Binary64) : (writePacked c s).pend = s.pend := rfl
@[simp] theorem writePacked_host (c : Six Binary64) : (writePacked c s).host = s.host := rfl
@[simp] theorem writePacked_seen (c : Six Binary64) : (writePacked c s).seen = s.seen := rfl
@[simp] theorem writePacked_policy (c : Six Binary64) : (writePacked c s).policy = s.policy := rfl
@[simp] theorem writePacked_draws (c : Six Binary64) : (writePacked c s).draws = s.draws := rfl

@[simp] theorem resetBlock_ctrl : (resetBlock s).ctrl = State.reset.ctrl := rfl
@[simp] theorem resetBlock_freq : (resetBlock s).freq = State.reset.freq := rfl
@[simp] theorem resetBlock_gain : (resetBlock s).gain = State.reset.gain := rfl
@[simp] theorem resetBlock_srate : (resetBlock s).srate = State.reset.srate := rfl
@[simp] theorem resetBlock_qval : (resetBlock s).qval = State.reset.qval := rfl
@[simp] theorem resetBlock_coefR : (resetBlock s).coefR = State.reset.coefR := rfl
@[simp] theorem resetBlock_coefQ : (resetBlock s).coefQ = State.reset.coefQ := rfl
@[simp] theorem resetBlock_pack : (resetBlock s).pack = State.reset.pack := rfl
@[simp] theorem resetBlock_done : (resetBlock s).done = State.reset.done := rfl
@[simp] theorem resetBlock_err : (resetBlock s).err = State.reset.err := rfl
@[simp] theorem resetBlock_pend : (resetBlock s).pend = State.reset.pend := rfl
@[simp] theorem resetBlock_host : (resetBlock s).host = s.host := rfl
@[simp] theorem resetBlock_seen : (resetBlock s).seen = s.seen := rfl
@[simp] theorem resetBlock_policy : (resetBlock s).policy = s.policy := rfl
@[simp] theorem resetBlock_draws : (resetBlock s).draws = s.draws := rfl

end Sys2Proof.Machine
end

