-- ==== Sys2Proof/Laws/Float.lean ====
section
/-! SUPPORT. Small facts of the binary64 layer. -/

namespace Sys2Proof.Machine

/-- A NaN operand makes the sum a NaN. -/
theorem F64.add_nan_left {x : Binary64} (h : F64.isNaN x = true) (y : Binary64) : F64.add x y = none := by
  simp [F64.add, h]

/-- A NaN operand makes the sum a NaN. -/
theorem F64.add_nan_right (x : Binary64) {y : Binary64} (h : F64.isNaN y = true) : F64.add x y = none := by
  simp [F64.add, h]

/-- A NaN operand makes the product a NaN. -/
theorem F64.mul_nan_left {x : Binary64} (h : F64.isNaN x = true) (y : Binary64) : F64.mul x y = none := by
  simp [F64.mul, h]

/-- A NaN operand makes the product a NaN. -/
theorem F64.mul_nan_right (x : Binary64) {y : Binary64} (h : F64.isNaN y = true) : F64.mul x y = none := by
  simp [F64.mul, h]

/-- A NaN operand makes the quotient a NaN. -/
theorem F64.div_nan_left {x : Binary64} (h : F64.isNaN x = true) (y : Binary64) : F64.div x y = none := by
  simp [F64.div, h]

/-- A NaN operand makes the quotient a NaN. -/
theorem F64.div_nan_right (x : Binary64) {y : Binary64} (h : F64.isNaN y = true) : F64.div x y = none := by
  simp [F64.div, h]

/-- The root of a NaN is a NaN. -/
theorem F64.sqrt_nan {x : Binary64} (h : F64.isNaN x = true) : F64.sqrt x = none := by simp [F64.sqrt, h]

/-- The rounded integer is the quotient or its successor. -/
theorem roundNearestEven_cases (n d : Nat) :
    roundNearestEven n d = n / d ∨ roundNearestEven n d = n / d + 1 := by
  unfold roundNearestEven
  split <;> simp

/-- Rounding to nearest is off by at most one half. -/
theorem roundNearestEven_bounds (n d : Nat) (hd : 0 < d) :
    2 * n ≤ (2 * roundNearestEven n d + 1) * d ∧ 2 * (roundNearestEven n d * d) ≤ 2 * n + d := by
  have h := Nat.div_add_mod' n d
  have hm := Nat.mod_lt n hd
  unfold roundNearestEven
  generalize n / d = q at *
  generalize n % d = m at *
  split
  · next hc =>
    have hm' : d ≤ 2 * m := by rcases hc with hc | hc <;> omega
    constructor <;> nlinarith
  · next hc =>
    have hm' : 2 * m ≤ d := by
      by_contra hlt
      exact hc (.inl (by omega))
    constructor <;> nlinarith

/-- The low 63 bits never pass those of an infinity. -/
theorem F64.roundBits_le (n d : Nat) : F64.roundBits n d ≤ F64.infBits := Nat.min_le_right _ _

end Sys2Proof.Machine
end

