-- ==== Sys2Proof/Laws/Operands.lean ====
section
/-! SUPPORT. The words of a 64-bit register, the fields of `CTRL`, and the bytes of a packed value. -/

namespace Sys2Proof.Machine

/-- The bits of two words joined to 64. -/
theorem getLsbD_joined (x y : Word) (i : Nat) :
    BitVec.getLsbD (w := 64) (x ++ y) i = if i < 32 then y.getLsbD i else x.getLsbD (i - 32) := by
  have h := BitVec.getLsbD_append (x := x) (y := y) (i := i)
  by_cases hi : i < 32 <;> simpa [hi] using h

/-- A written word is read back (R46). -/
@[simp] theorem halfOf_withHalf_self (x : Binary64) (h : Half) (v : Word) : halfOf (withHalf x h v) h = v := by
  cases h <;> simp only [halfOf, withHalf] <;> ext i hi <;>
    simp only [BitVec.getElem_extractLsb', getLsbD_joined] <;> simp [hi, BitVec.getLsbD_eq_getElem]

/-- The other word is kept (R46). -/
theorem halfOf_withHalf_of_ne (x : Binary64) {h g : Half} (hg : g ≠ h) (v : Word) :
    halfOf (withHalf x h v) g = halfOf x g := by
  cases h <;> cases g <;> first | exact absurd rfl hg | skip
  all_goals
    simp only [halfOf, withHalf]
    ext i hi
    simp only [BitVec.getElem_extractLsb', getLsbD_joined]
    simp [hi]

/-- Two 64-bit values with the same words are equal (R69). -/
theorem eq_of_halfOf {x y : Binary64} (hl : halfOf x .lo = halfOf y .lo) (hh : halfOf x .hi = halfOf y .hi) : x = y := by
  apply BitVec.eq_of_getLsbD_eq
  intro i hi
  by_cases h : i < 32
  · have := congrArg (fun v => BitVec.getLsbD v i) hl
    simpa [halfOf, h] using this
  · have := congrArg (fun v => BitVec.getLsbD v (i - 32)) hh
    have e : 32 + (i - 32) = i := by omega
    have l : i - 32 < 32 := by omega
    simpa [halfOf, l, e] using this

/-- The field that `FTYPE` reads back as (R72). -/
@[simp] theorem Ctrl.ofWord_ftype (v : Word) : (Ctrl.ofWord v).ftype = v.extractLsb' 0 4 := rfl

/-- The field that `QOPT` reads back as (R73). -/
@[simp] theorem Ctrl.ofWord_qopt (v : Word) : (Ctrl.ofWord v).qopt = v.extractLsb' 4 2 := rfl

/-- The field that `NORM` reads back as (R63). -/
@[simp] theorem Ctrl.ofWord_norm (v : Word) : (Ctrl.ofWord v).norm = v.getLsbD 8 := rfl

/-- The field that `QUIRK` reads back as (R74). -/
@[simp] theorem Ctrl.ofWord_quirk (v : Word) : (Ctrl.ofWord v).quirk = v.extractLsb' 12 4 := rfl

/-- The snapshot is of the live registers (R150). -/
theorem snapshot_eq (s : State) : s.snapshot = ⟨s.ctrl, s.freq, s.gain, s.srate, s.qval, s.coefR⟩ := rfl

end Sys2Proof.Machine
end

