-- ==== Sys2Proof/Laws/Ops.lean ====
section
/-! SUPPORT. One lemma per shared operation that says once everything it can do; proofs about the step cite these and
do not unfold the operations. -/

namespace Sys2Proof.Machine

/-- What a valid command word does, by the state of the block (R140, R141, R149). -/
theorem command_next {k : Kind} {effect : Snapshot → State → State} {s t : State} (h : command k effect s = .next t) :
    (s.pend = none ∧ t = accept k s) ∨
    (∃ p, s.pend = some p ∧ p.kind = k ∧ p.turns = 0 ∧ t = finish (effect p.snap s)) ∨
    (∃ p, s.pend = some p ∧ (p.kind ≠ k ∨ p.turns ≠ 0) ∧ t = s) := by
  unfold command at h
  split at h
  · next hp => exact .inl ⟨hp, by injection h with h; exact h.symm⟩
  · next p hp =>
    split at h
    · next hd =>
      injection h with h
      simp only [InFlight.due, Bool.and_eq_true, decide_eq_true_eq, beq_iff_eq] at hd
      exact .inr (.inl ⟨p, hp, hd.1, hd.2, h.symm⟩)
    · next hd =>
      injection h with h
      refine .inr (.inr ⟨p, hp, ?_, h.symm⟩)
      simp only [InFlight.due, Bool.and_eq_true, decide_eq_true_eq, beq_iff_eq] at hd
      exact Classical.not_and_iff_not_or_not.mp hd

/-- A command word presented to an idle block is accepted. -/
theorem command_idle {k : Kind} {effect : Snapshot → State → State} {s : State} (h : s.pend = none) :
    command k effect s = .next (accept k s) := by simp [command, h]

/-- The command in flight completes when its completion is due. -/
theorem command_due {k : Kind} {effect : Snapshot → State → State} {s : State} {S : Snapshot}
    (h : s.pend = some ⟨k, S, 0⟩) : command k effect s = .next (finish (effect S s)) := by
  simp [command, h, InFlight.due]

/-- A busy block whose completion is not due ignores the word. -/
theorem command_busy {k : Kind} {effect : Snapshot → State → State} {s : State} {p : InFlight}
    (h : s.pend = some p) (ht : p.turns ≠ 0) : command k effect s = .next s := by
  simp [command, h, InFlight.due, ht]

/-- What a word with an invalid selector does (R141, R148). -/
theorem reject_next {s t : State} (h : reject s = .next t) :
    (s.pend = none ∧ t = s.statusRejected) ∨ (s.pend ≠ none ∧ t = s) := by
  unfold reject at h
  split at h
  · next hp => exact .inl ⟨hp, by injection h with h; exact h.symm⟩
  · next p hp => exact .inr ⟨by simp [hp], by injection h with h; exact h.symm⟩

/-- A bus error stops the run or records the response, and nothing else (R162). -/
theorem busError_cases (r : Fault) (s : State) :
    (s.policy = .stops ∧ busError r s = .fault r) ∨
    (s.policy = .records ∧ busError r s = .next (s.receive (.busError r))) := by
  cases h : s.policy <;> simp [busError, h]

/-- The three bus errors and the mapped access, in the order of R166. -/
theorem checkAccess_cases (w : Width) (off : Offset) :
    (w ≠ .w32 ∧ checkAccess w off = .error (.busWidth off)) ∨
    (w = .w32 ∧ off.toNat % 4 ≠ 0 ∧ checkAccess w off = .error (.busMisaligned off)) ∨
    (w = .w32 ∧ off.toNat % 4 = 0 ∧ Reg.atOffset off = none ∧ checkAccess w off = .error (.busUnmapped off)) ∨
    (∃ r, w = .w32 ∧ off.toNat % 4 = 0 ∧ Reg.atOffset off = some r ∧ checkAccess w off = .ok r) := by
  unfold checkAccess
  by_cases hw : w = .w32
  · by_cases ha : off.toNat % 4 = 0
    · cases hr : Reg.atOffset off with
      | none => simp [hw, ha]
      | some r => simp [hw, ha]
    · simp [hw, ha]
  · simp [hw]

/-- What a write at a mapped offset does, in the order of R166. -/
theorem writeReg_cases (run : Instr → State → Result) (r : Reg) (v : Word) (s : State) :
    (r.readOnly = true ∧ writeReg run r v s = .next s) ∨
    (r.readOnly = false ∧ s.busy = true ∧ writeReg run r v s = .next s) ∨
    (r = .cmd ∧ s.busy = false ∧ writeReg run r v s = run (decode v) s) ∨
    (r.readOnly = false ∧ r ≠ .cmd ∧ s.busy = false ∧ writeReg run r v s = .next (storeReg r v s)) := by
  unfold writeReg
  cases hr : r.readOnly <;> cases hb : s.busy <;> by_cases hc : r = .cmd <;> simp_all

/-- A read returns its word to the host and changes nothing else, but for a draw (R45). -/
theorem readReg_cases (r : Reg) (s : State) :
    readReg r s = s.receive (.data (readWord r s)) ∨
    (r.isResult = true ∧ s.busy = true ∧ readReg r s = (s.receive (.data (readWord r s))).nextDraw) := by
  unfold readReg
  cases hr : r.isResult <;> cases hb : s.busy <;> simp

/-- One step is the completion of the command in flight, or a turn of the host. -/
theorem turn_cases (run : Instr → State → Result) (s : State) :
    (s.pend = none ∧ turn run s = hostTurn run s) ∨
    (∃ p, s.pend = some p ∧ p.turns = 0 ∧ turn run s = run p.kind.instr s) ∨
    (∃ p, s.pend = some p ∧ p.turns ≠ 0 ∧ turn run s = hostTurn run (s.setPend (some p.elapse))) := by
  unfold turn
  cases hp : s.pend with
  | none => simp
  | some p => by_cases ht : p.turns = 0 <;> simp [ht]

/-- A run of `k + 1` steps whose first step goes on is a run of `k` steps from there. -/
theorem run_succ {k : Nat} {s t : State} (h : step s = .next t) : Sys2Proof.core.run (k + 1) s = Sys2Proof.core.run k t := by
  simp only [Host.Core.run]
  rw [show Sys2Proof.core.step s = .next t from h]

@[simp] theorem exec_runReal (s : State) : exec .runReal s = command .runReal effectRunReal s := rfl

@[simp] theorem exec_runFixed (s : State) : exec .runFixed s = command .runFixed effectRunFixed s := rfl

@[simp] theorem exec_runBytes (s : State) : exec .runBytes s = command .runBytes effectRunBytes s := rfl

@[simp] theorem exec_convReal (s : State) : exec .convReal s = command .convReal effectConvReal s := rfl

@[simp] theorem exec_convFixed (s : State) : exec .convFixed s = command .convFixed effectConvFixed s := rfl

@[simp] theorem exec_convBytes (s : State) : exec .convBytes s = command .convBytes effectConvBytes s := rfl

@[simp] theorem exec_invalidSel (sel : BitVec 8) (conv : Bool) (s : State) : exec (.invalidSel sel conv) s = reject s := rfl

/-- Every arm of `exec` is a valid command or the rejection. -/
theorem exec_shape (i : Instr) :
    (∃ k effect, i = Kind.instr k ∧ ∀ s, exec i s = command k effect s) ∨
    (∃ sel conv, i = .invalidSel sel conv ∧ ∀ s, exec i s = reject s) := by
  cases i with
  | runReal => exact .inl ⟨.runReal, effectRunReal, rfl, fun _ => rfl⟩
  | runFixed => exact .inl ⟨.runFixed, effectRunFixed, rfl, fun _ => rfl⟩
  | runBytes => exact .inl ⟨.runBytes, effectRunBytes, rfl, fun _ => rfl⟩
  | convReal => exact .inl ⟨.convReal, effectConvReal, rfl, fun _ => rfl⟩
  | convFixed => exact .inl ⟨.convFixed, effectConvFixed, rfl, fun _ => rfl⟩
  | convBytes => exact .inl ⟨.convBytes, effectConvBytes, rfl, fun _ => rfl⟩
  | invalidSel sel conv => exact .inr ⟨sel, conv, rfl, fun _ => rfl⟩

end Sys2Proof.Machine
end

