-- ==== Sys2Proof/Laws/PerInstr.lean ====
section
/-! SUPPORT. Statements made per constructor of `Instr`. -/

namespace Sys2Proof.Laws

/-- The command word an instruction encodes to holds zeros in the ignored bits 31:9 (R76, R77). -/
def CanonicalWord.Statement (i : Instr) : Prop := (encode i).toNat < 512

theorem CanonicalWord.runReal : CanonicalWord.Statement .runReal := by unfold CanonicalWord.Statement; decide

theorem CanonicalWord.runFixed : CanonicalWord.Statement .runFixed := by unfold CanonicalWord.Statement; decide

theorem CanonicalWord.runBytes : CanonicalWord.Statement .runBytes := by unfold CanonicalWord.Statement; decide

theorem CanonicalWord.convReal : CanonicalWord.Statement .convReal := by unfold CanonicalWord.Statement; decide

theorem CanonicalWord.convFixed : CanonicalWord.Statement .convFixed := by unfold CanonicalWord.Statement; decide

theorem CanonicalWord.convBytes : CanonicalWord.Statement .convBytes := by unfold CanonicalWord.Statement; decide

theorem CanonicalWord.invalidSel (sel : BitVec 8) (conv : Bool) : CanonicalWord.Statement (.invalidSel sel conv) := by
  unfold CanonicalWord.Statement
  revert sel conv
  decide

end Sys2Proof.Laws
end

