-- ==== Sys2Proof/Tests/Slice0.lean ====
section
/-! SUPPORT. Tests whose expected values are those of spec 95_test_vectors.md (named in each docstring), and for each
statement with hypotheses a state and operands that meet them together. -/

namespace Sys2Proof.Tests

open Sys2Proof Sys2Proof.Machine
open Sys2Proof.Config (Params)

/-! ### Well-formedness and decoding -/

/-- The one check of `Instr.wellFormed` refuses each valid selector and passes the bounds of the invalid range. -/
theorem test_wellFormed_refuses :
    (Instr.invalidSel 0#8 false).wellFormed = false ∧ (Instr.invalidSel 1#8 true).wellFormed = false ∧
    (Instr.invalidSel 2#8 false).wellFormed = false ∧ (Instr.invalidSel 3#8 false).wellFormed = true ∧
    (Instr.invalidSel 255#8 true).wellFormed = true := by decide

/-- Words written out from R65 and R66 field by field: 23 ignored bits, `CONV`, `SEL`. -/
theorem test_decode_written_words :
    decode (0#23 ++ 0#1 ++ 0#8) = .runReal ∧ decode (0#23 ++ 0#1 ++ 1#8) = .runFixed ∧
    decode (0#23 ++ 0#1 ++ 2#8) = .runBytes ∧ decode (0#23 ++ 1#1 ++ 0#8) = .convReal ∧
    decode (0#23 ++ 1#1 ++ 1#8) = .convFixed ∧ decode (0x7FFFFF#23 ++ 1#1 ++ 2#8) = .convBytes ∧
    decode (0#23 ++ 1#1 ++ 3#8) = .invalidSel 3#8 true := by decide

/-- Bytes that are not one word are rejected by name; four bytes are read low byte first (R48). -/
theorem test_decodeBytes :
    decodeBytes [0x01#8, 0x01#8, 0x00#8, 0x00#8] = .ok .convFixed ∧
    decodeBytes [0x01#8, 0x01#8] = .error (.notOneWord 2) := ⟨rfl, rfl⟩

/-- Every row of opcode_table.json decodes to its mnemonic. -/
theorem test_table_rows_decode :
    opcodeTable.all (fun r => (decode r.pattern).mnemonic == r.mnemonic) = true := by decide

/-! ### Binary64 arithmetic and the derivation -/

/-- A quiet NaN for every operation. -/
def nan (_ : Nat) : Binary64 := F64.quietNaN 0#52

theorem quietSupply_nan : quietSupply nan := fun _ => ⟨0#52, rfl⟩

/-- Parameters with the functions replaced by the values of the "Intermediates" table of V1 to V27. -/
def vectorParams (A : Binary64) : Params :=
  { Config.params with
    sin := fun _ => 0x3FC0B5150F6DA2D0#64
    cos := fun _ => 0x3FEFB9EA92EC689B#64
    pow := fun _ _ => A }

/-- The inputs of V1 to V27: `f = 1000`, `fs = 48000`, `g = 6`, `qv = 1`. -/
def vectorInputs (ftype : BitVec 4) (qopt : BitVec 2) : Snapshot where
  ctrl := ⟨ftype, qopt, true, 0#4⟩
  freq := 0x408F400000000000#64
  gain := 0x4018000000000000#64
  srate := 0x40E7700000000000#64
  qval := 0x3FF0000000000000#64
  coefR := Six.fill 0#64

/-- `A` for the types 6 to 8. -/
def shelfA : Binary64 := 0x3FF699C0F7E86E10#64

/-- The intermediates `w0` and alpha (Q and ShelfSlope) of V1 to V27. -/
theorem test_intermediates :
    angularFrequency Config.params nan 0x408F400000000000#64 0x40E7700000000000#64 = 0x3FC0C152382D7365#64 ∧
    alphaQ nan 0x3FC0B5150F6DA2D0#64 0x3FF0000000000000#64 = 0x3FB0B5150F6DA2D0#64 ∧
    alphaShelfSlope nan 0x3FC0B5150F6DA2D0#64 0x3FFFEC982D5BB8AF#64 0x3FF0000000000000#64 = 0x3FB7A0B52F0842A0#64 := by
  decide +kernel

/-- V1, LowPass. -/
theorem test_V1 : derive (vectorParams shelfA) nan (vectorInputs 0#4 0#2) =
    ⟨0x3FF0000000000000#64, 0x3FFDC854389C37D9#64, 0xBFEC143CF09872E6#64,
     0x3F70728FEC006687#64, 0x3F80728FEC006687#64, 0x3F70728FEC006687#64⟩ := by decide +kernel

/-- V2, HighPass. -/
theorem test_V2 : derive (vectorParams shelfA) nan (vectorInputs 1#4 0#2) =
    ⟨0x3FF0000000000000#64, 0x3FFDC854389C37D9#64, 0xBFEC143CF09872E6#64,
     0x3FEDE939587438A7#64, 0xBFFDE939587438A7#64, 0x3FEDE939587438A7#64⟩ := by decide +kernel

/-- V3, BandPassPeakQ. -/
theorem test_V3 : derive (vectorParams shelfA) nan (vectorInputs 2#4 0#2) =
    ⟨0x3FF0000000000000#64, 0x3FFDC854389C37D9#64, 0xBFEC143CF09872E6#64,
     0x3FAF5E187B3C68CE#64, 0x0000000000000000#64, 0xBFAF5E187B3C68CE#64⟩ := by decide +kernel

/-- V4, BandPassZeroDb. -/
theorem test_V4 : derive (vectorParams shelfA) nan (vectorInputs 3#4 0#2) =
    ⟨0x3FF0000000000000#64, 0x3FFDC854389C37D9#64, 0xBFEC143CF09872E6#64,
     0x3FAF5E187B3C68CE#64, 0x0000000000000000#64, 0xBFAF5E187B3C68CE#64⟩ := by decide +kernel

/-- V5, Notch. -/
theorem test_V5 : derive (vectorParams shelfA) nan (vectorInputs 4#4 0#2) =
    ⟨0x3FF0000000000000#64, 0x3FFDC854389C37D9#64, 0xBFEC143CF09872E6#64,
     0x3FEE0A1E784C3973#64, 0xBFFDC854389C37D9#64, 0x3FEE0A1E784C3973#64⟩ := by decide +kernel

/-- V6, AllPass. -/
theorem test_V6 : derive (vectorParams shelfA) nan (vectorInputs 5#4 0#2) =
    ⟨0x3FF0000000000000#64, 0x3FFDC854389C37D9#64, 0xBFEC143CF09872E6#64,
     0x3FEC143CF09872E6#64, 0xBFFDC854389C37D9#64, 0x3FF0000000000000#64⟩ := by decide +kernel

/-- V7, Peaking. -/
theorem test_V7 : derive (vectorParams shelfA) nan (vectorInputs 6#4 0#2) =
    ⟨0x3FF0000000000000#64, 0x3FFE533BD2CBD1D1#64, 0xBFED2C71D4478AFA#64,
     0x3FF0B40826F2E860#64, 0xBFFE533BD2CBD1D1#64, 0x3FEBC4618661BA3B#64⟩ := by decide +kernel

/-- V8, LowShelf. -/
theorem test_V8 : derive (vectorParams shelfA) nan (vectorInputs 7#4 0#2) =
    ⟨0x3FF0000000000000#64, 0x3FFE25FB6C902950#64, 0xBFECAA243027C4D7#64,
     0x3FF063C74F3A9B33#64, 0xBFFE0E8CA50B118B#64, 0x3FEC117320BCBDF6#64⟩ := by decide +kernel

/-- V9, HighShelf with the hardware default `OMIT`. -/
theorem test_V9 : derive (vectorParams shelfA) nan (vectorInputs 8#4 0#2) =
    ⟨0x3FF0000000000000#64, 0x3FFD57914F83ECC3#64, 0xBFEDB3498F7C3BAE#64,
     0x3FFF2A3E92748D97#64, 0xC00D5C985EBC61C7#64, 0x3FFBEAAA6AFC84E4#64⟩ := by decide +kernel

/-- V-HSC, HighShelf with `COOKBOOK`: the quantized row of the Q option. -/
theorem test_VHSC :
    quantize6 Config.params (derive { vectorParams shelfA with hsA2 := .cookbook } nan (vectorInputs 8#4 0#2)) =
    ⟨0x400000#24, 0x755E45#24, 0xC932D9#24, 0x7CA8FA#24, 0x151B3D#24, 0x6FAAA9#24⟩ := by decide +kernel

/-- V19, LowPass under ShelfSlope: the quantized row. -/
theorem test_V19 :
    quantize6 Config.params (derive (vectorParams 0x3FFFEC982D5BB8AF#64) nan (vectorInputs 0#4 2#2)) =
    ⟨0x400000#24, 0x742E8C#24, 0xCAD0CD#24, 0x004029#24, 0x008052#24, 0x004029#24⟩ := by decide +kernel

/-- T1 from its alpha: Peaking with `A = 1`, normalized. -/
theorem test_T1 : divideByA0 nan (signFlip (peaking nan 0x3FEFB9EA92EC689B#64 F64.one 0x3FB64BA25688904B#64)) =
    ⟨0x3FF0000000000000#64, 0x3FFD2F3C1119BD41#64, 0xBFEADF68418C4EC1#64,
     0x3FF0000000000000#64, 0xBFFD2F3C1119BD41#64, 0x3FEADF68418C4EC1#64⟩ := by decide +kernel

/-- C1: `qv = 0` under Q, LowPass: NaN, 0, NaN, 0, 0, 0. -/
theorem test_C1 : (derive (vectorParams shelfA) nan { vectorInputs 0#4 0#2 with qval := 0#64 }).toList.map F64.isNaN =
    [true, false, true, false, false, false] := by decide +kernel

/-- The quantizer table: wraps, floors, a subnormal, overflow of the scaling, and the two values of `P_QWIDE`. -/
theorem test_quantizer_table :
    quantize Config.params 0xBFF0000000000000#64 = 0xC00000#24 ∧ quantize Config.params 0xBFB999999999999A#64 = 0xF99999#24 ∧
    quantize Config.params 0xBE80000000000000#64 = 0xFFFFFF#24 ∧ quantize Config.params 0x8000000000000000#64 = 0x000000#24 ∧
    quantize Config.params 0xC00000000D6BF94D#64 = 0x7FFFFF#24 ∧ quantize Config.params 0x407FFFFFF583A53C#64 = 0xFFFFD6#24 ∧
    quantize Config.params 0xC082C20000000000#64 = 0xF00000#24 ∧ quantize Config.params 0x7E37E43C8800759C#64 = 0x000000#24 ∧
    quantize Config.params 0x0000000000000001#64 = 0x000000#24 ∧ quantize Config.params 0x7E90000000000000#64 = 0x000000#24 ∧
    quantize { Config.params with qWide := .zero } 0x4082C20000000000#64 = 0x000000#24 ∧
    quantize { Config.params with qWide := .zero } 0xC080000000000000#64 = 0x000000#24 := by decide +kernel

/-! ### The machine -/

/-- An idle block whose host has the given lines left. -/
def idle (h : List HostOp) : State := State.reset.setHost h

/-- A block with a command in flight, `m` host turns before completion. -/
def busyFor (k : Kind) (m : Nat) (h : List HostOp) : State :=
  (idle h).setPend (some ⟨k, (idle h).snapshot, m⟩)

/-- A property of the next state, false of a fault or a refusal. -/
def holdsNext (r : Result) (f : State → Bool) : Bool :=
  match r with
  | .next t => f t
  | .fault _ => false
  | .refused _ => false

/-- The table "CTRL write and readback". -/
theorem test_ctrl_readback :
    (Ctrl.ofWord 0xFFFFFFFF#32).word = 0x0000F13F#32 ∧ (Ctrl.ofWord 0x12345678#32).word = 0x00005038#32 ∧
    (Ctrl.ofWord 0x00000116#32).word = 0x00000116#32 ∧ (Ctrl.ofWord 0x000000C0#32).word = 0x00000000#32 := by decide

/-- The table "STATUS sequences": acceptance reads 1, rejection 4, a command ignored while busy 1. -/
theorem test_status_words :
    holdsNext (step (idle [wr .cmd 0x00000000#32])) (fun t => t.statusWord == 1#32) = true ∧
    holdsNext (step (idle [wr .cmd 0x00000103#32])) (fun t => t.statusWord == 4#32) = true ∧
    holdsNext (step (busyFor .runReal 5 [wr .cmd 0x00000003#32])) (fun t => t.statusWord == 1#32) = true := by
  decide +kernel

/-- CONV_REAL completes with `STATUS` = 2 (the example of R145). -/
theorem test_convReal_completes :
    holdsNext (exec .convReal (busyFor .convReal 0 [])) (fun t => t.statusWord == 2#32) = true := by decide +kernel

/-- The table "Register interface": unmapped, misaligned and narrow accesses. -/
theorem test_bus_errors :
    checkAccess .w32 0x0C#8 = .error (.busUnmapped 0x0C#8) ∧ checkAccess .w32 0xB4#8 = .error (.busUnmapped 0xB4#8) ∧
    checkAccess .w32 0x02#8 = .error (.busMisaligned 0x02#8) ∧ checkAccess .w8 0x00#8 = .error (.busWidth 0x00#8) ∧
    checkAccess .w64 0x10#8 = .error (.busWidth 0x10#8) := ⟨rfl, rfl, rfl, rfl, rfl⟩

/-- P2: `COEF_R = [1, -1, 0.5, -0.5, 0.1, -0.1]`. -/
def coefP2 : Six Binary64 :=
  ⟨0x3FF0000000000000#64, 0xBFF0000000000000#64, 0x3FE0000000000000#64, 0xBFE0000000000000#64,
   0x3FB999999999999A#64, 0xBFB999999999999A#64⟩

/-- A block with `kind` due on P2's coefficients. -/
def dueOnP2 (k : Kind) : State :=
  (State.reset.setCoefR coefP2).setPend (some ⟨k, (State.reset.setCoefR coefP2).snapshot, 0⟩)

/-- P2 under CONV_FIXED: the words of R146's example; `PACK` is kept. -/
theorem test_convFixed_P2 : holdsNext (exec .convFixed (dueOnP2 .convFixed)) (fun t =>
    t.coefQ == ⟨0x400000#24, 0xC00000#24, 0x200000#24, 0xE00000#24, 0x066666#24, 0xF99999#24⟩
      && packWord t.pack 0 == 0#32) = true := by decide +kernel

/-- P2 under CONV_BYTES: the packed words of R147's example. -/
theorem test_convBytes_P2 : holdsNext (exec .convBytes (dueOnP2 .convBytes)) (fun t =>
    [0, 1, 2, 3, 4].map (packWord t.pack) ==
      [0x00400000#32, 0x0000C000#32, 0xE0000020#32, 0x99066666#32, 0x0000F999#32]) = true := by decide +kernel

/-- A torn write keeps the other word (the table's `WR FREQ_HI` line). -/
theorem test_torn_write : holdsNext
    (step (((idle [wr (.param .freq .hi) 0x40E77000#32])).setParam .freq 0x408F400000000000#64))
    (fun t => t.freq == 0x40E7700000000000#64) = true := by decide +kernel

/-- `step` runs each table word as the first command after reset. -/
theorem test_first_command :
    [0x000, 0x001, 0x002, 0x100, 0x101, 0x102].all (fun w =>
      holdsNext (step (State.reset.withFetchWord 16 w)) (fun t => t.busy)) = true ∧
    holdsNext (step (State.reset.withFetchWord 8 0x80)) (fun t => t.err) = true := by decide +kernel

/-- The macros of R79 have the encodings of Program 1's lines 1, 2 and Program 5's lines 10, 11. -/
theorem test_host_lines :
    wr64 (.param .freq) 0x408F400000000000#64 = [.write .w32 0x10#8 0x00000000#32, .write .w32 0x14#8 0x408F4000#32] ∧
    wr .ctrl Ctrl.initial.word = .write .w32 0x00#8 0x00000100#32 ∧ wr .cmd 1#32 = .write .w32 0x04#8 0x00000001#32 := by
  decide

/-- Program 5 is the DERIVE of its first line. -/
theorem test_derive_call :
    deriveCall 0x408F400000000000#64 0x4018000000000000#64 0x40E7700000000000#64 0#64 Ctrl.initial 1#32 =
      [.poll, .write .w32 0x10#8 0#32, .write .w32 0x14#8 0x408F4000#32, .write .w32 0x18#8 0#32,
       .write .w32 0x1C#8 0x40180000#32, .write .w32 0x20#8 0#32, .write .w32 0x24#8 0x40E77000#32,
       .write .w32 0x28#8 0#32, .write .w32 0x2C#8 0#32, .write .w32 0x00#8 0x00000100#32,
       .write .w32 0x04#8 0x00000001#32, .poll, .read .w32 0x08#8] := by decide

/-! ### Witnesses: for each statement with hypotheses, values that meet them -/

theorem witness_EncodeDecode : (Instr.invalidSel 3#8 true).wellFormed = true ∧ Instr.runBytes.wellFormed = true := by
  decide

/-- One word for each clause of R77, with every ignored bit set, and both ends of the rejected range. -/
theorem witness_DecodeByFields :
    2 < (0x000001FF#32 : Word).toNat % 256 ∧ 2 < (0x00000003#32 : Word).toNat % 256 ∧
    [0xFFFFFE00#32, 0xFFFFFE01#32, 0xFFFFFE02#32].map (fun v : Word => (v.toNat / 256 % 2, v.toNat % 256)) =
      [(0, 0), (0, 1), (0, 2)] ∧
    [0xFFFFFF00#32, 0xFFFFFF01#32, 0xFFFFFF02#32].map (fun v : Word => (v.toNat / 256 % 2, v.toNat % 256)) =
      [(1, 0), (1, 1), (1, 2)] := by decide

theorem witness_ReservedBits : (∀ i, i < 9 → (0x00000102#32 : Word).getLsbD i = (0xFFFFFF02#32 : Word).getLsbD i) := by
  decide

theorem idle_not_due (h : List HostOp) : ¬ (idle h).engineDue := by rintro ⟨p, hp, -⟩; cases hp

theorem busy_not_due (k : Kind) (m : Nat) (h : List HostOp) : ¬ (busyFor k (m + 1) h).engineDue := by
  rintro ⟨p, hp, ht⟩; cases hp; cases ht

theorem busy_due (k : Kind) (h : List HostOp) : (busyFor k 0 h).engineDue := ⟨_, rfl, rfl⟩

theorem witness_BusErrors :
    (¬ (idle [.read .w8 0#8]).engineDue ∧ (idle [.read .w8 0#8]).policy = .stops ∧ Width.w8 ≠ .w32) ∧
    (¬ (busyFor .runReal 1 [.write .w32 0xFE#8 0#32]).engineDue ∧ (0xFE#8 : Offset).toNat % 4 ≠ 0) ∧
    ((0xFC#8 : Offset).toNat % 4 = 0 ∧ ∀ r ∈ Reg.all, r.offset ≠ 0xFC#8) ∧
    { idle [.read .w32 0xFC#8] with policy := .records }.policy = .records :=
  ⟨⟨idle_not_due _, rfl, by decide⟩, ⟨busy_not_due _ 0 _, by decide⟩, by decide, rfl⟩

theorem witness_ReadReturns :
    ¬ (idle [rd (.pack 4)]).engineDue ∧ (idle [rd (.pack 4)]).host = rd (.pack 4) :: [] ∧
    (idle [rd (.pack 4)]).busy = false ∧ ¬ (busyFor .runReal 1 [rd .status]).engineDue ∧ Reg.isResult .status = false :=
  ⟨idle_not_due _, rfl, rfl, busy_not_due _ 0 _, rfl⟩

theorem witness_WriteStores :
    (¬ (idle [wr .cmd 0#32]).engineDue ∧ (idle [wr .cmd 0#32]).busy = false) ∧
    (¬ (busyFor .runReal 1 [wr .ctrl 0#32]).engineDue ∧ (busyFor .runReal 1 [wr .ctrl 0#32]).busy = true) ∧
    Reg.readOnly (.pack 0) = true ∧ Reg.readOnly (.coefR .b2 .hi) = false :=
  ⟨⟨idle_not_due _, rfl⟩, ⟨busy_not_due _ 0 _, rfl⟩, rfl, rfl⟩

theorem witness_WriteFrame :
    (idle [wr .ctrl 0xFFFFFFFF#32]).busy = false ∧ Reg.readOnly .ctrl = false ∧ Reg.ctrl ≠ .cmd ∧
    holdsNext (step (idle [wr .ctrl 0xFFFFFFFF#32])) (fun _ => true) = true ∧
    (4#8 : Offset).toNat / 4 ≠ (Reg.offset .ctrl).toNat / 4 := by decide +kernel

theorem witness_EitherWordOrder : State.reset.busy = false := rfl

theorem witness_WindowAddresses : (255 < 256 ∨ 256 + 256 ≤ 255) ∧ (511 < 256 ∨ 256 + 256 ≤ 512) ∧
    windowOffset 256 511 = some 0xFF#8 ∧ windowOffset 256 256 = some 0x00#8 := by decide

theorem witness_StepRunsTheCommand :
    ((idle [wr .cmd 2#32]).pend = none ∧ (idle [wr .cmd 2#32]).host = wr .cmd 2#32 :: []) ∧
    (busyFor .convBytes 0 []).pend = some ⟨.convBytes, (idle []).snapshot, 0⟩ ∧ (idle []).host = [] ∧
    (busyFor .runReal 3 []).pend = some ⟨.runReal, (idle []).snapshot, 2 + 1⟩ := ⟨⟨rfl, rfl⟩, rfl, rfl, rfl⟩

theorem witness_Acceptance :
    (idle [wr .cmd 0x101#32]).pend = none ∧ (idle [wr .cmd 0x101#32]).host = wr .cmd 0x101#32 :: [] ∧
    decode 0x101#32 = Kind.convFixed.instr := ⟨rfl, rfl, by decide⟩

theorem witness_ExecAccepts : State.reset.pend = none := rfl

theorem witness_CommandWhileBusyIgnored :
    (busyFor .runFixed 1 [wr .cmd 3#32]).busy = true ∧ ¬ (busyFor .runFixed 1 [wr .cmd 3#32]).engineDue ∧
    (busyFor .runFixed 1 [wr .cmd 3#32]).host = wr .cmd 3#32 :: [] := ⟨rfl, busy_not_due _ 0 _, rfl⟩

theorem witness_Rejection :
    (idle [wr .cmd 3#32]).pend = none ∧ (idle [wr .cmd 3#32]).host = wr .cmd 3#32 :: [] ∧
    2 < (3#32 : Word).toNat % 256 := ⟨rfl, rfl, by decide⟩

theorem witness_RunRealCompletes : ∃ S, (busyFor .runReal 0 []).pend = some ⟨.runReal, S, 0⟩ := ⟨_, rfl⟩

theorem witness_RunFixedCompletes : ∃ S, (busyFor .runFixed 0 []).pend = some ⟨.runFixed, S, 0⟩ := ⟨_, rfl⟩

theorem witness_RunBytesCompletes : ∃ S, (busyFor .runBytes 0 []).pend = some ⟨.runBytes, S, 0⟩ := ⟨_, rfl⟩

theorem witness_ConvRealCompletes : ∃ S, (busyFor .convReal 0 []).pend = some ⟨.convReal, S, 0⟩ := ⟨_, rfl⟩

theorem witness_ConvFixedCompletes : ∃ S, (dueOnP2 .convFixed).pend = some ⟨.convFixed, S, 0⟩ := ⟨_, rfl⟩

theorem witness_ConvBytesCompletes : ∃ S, (dueOnP2 .convBytes).pend = some ⟨.convBytes, S, 0⟩ := ⟨_, rfl⟩

theorem witness_CompletionStep : (dueOnP2 .convBytes).engineDue := ⟨_, rfl, rfl⟩

theorem witness_ExecFrame :
    holdsNext (exec .convBytes (dueOnP2 .convBytes)) (fun t => t.pack != State.reset.pack) = true ∧
    holdsNext (exec .runReal State.reset) (fun _ => true) = true ∧ ¬ State.reset.engineDue :=
  ⟨by decide +kernel, by decide +kernel, idle_not_due []⟩

theorem witness_UnrecognizedCodes : 9 ≤ (9#4 : BitVec 4).toNat ∧ 9 ≤ (15#4 : BitVec 4).toNat := by decide

theorem witness_SignFlip : { vectorInputs 0#4 0#2 with ctrl := ⟨0#4, 0#2, false, 0#4⟩ }.ctrl.norm = false := rfl

theorem witness_NormalizedA0IsOne :
    (vectorInputs 6#4 0#2).ctrl.norm = true ∧
    F64.isFinite (unnormalized (vectorParams shelfA) nan (vectorInputs 6#4 0#2)).a0 = true ∧
    F64.isZero (unnormalized (vectorParams shelfA) nan (vectorInputs 6#4 0#2)).a0 = false := by decide +kernel

theorem witness_CoefficientRelations :
    quietSupply nan ∧ (vectorInputs 1#4 0#2).ctrl.ftype.toNat ≤ 1 ∧ (vectorInputs 3#4 0#2).ctrl.ftype.toNat = 3 ∧
    (vectorInputs 4#4 0#2).ctrl.ftype.toNat = 4 ∧
    (4 ≤ (vectorInputs 15#4 0#2).ctrl.ftype.toNat ∧ (vectorInputs 15#4 0#2).ctrl.ftype.toNat ≠ 7 ∧
      (vectorInputs 15#4 0#2).ctrl.ftype.toNat ≠ 8) := ⟨quietSupply_nan, by decide, by decide, by decide, by decide⟩

/-- `a0` before normalization finite and not zero for AllPass, and positive (`qv = 1`), negative (`qv = -1/64`) and
infinite (`qv = 0`) for BandPassPeakQ and BandPassZeroDb. -/
theorem witness_CoefficientRelations_normalized :
    ((vectorInputs 5#4 0#2).ctrl.ftype.toNat = 5 ∧ (vectorInputs 5#4 0#2).ctrl.norm = true ∧
      F64.isFinite (unnormalized (vectorParams shelfA) nan (vectorInputs 5#4 0#2)).a0 = true ∧
      F64.isZero (unnormalized (vectorParams shelfA) nan (vectorInputs 5#4 0#2)).a0 = false) ∧
    [(2#4, 0x3FF0000000000000#64), (3#4, 0xBF90000000000000#64), (2#4, 0x0000000000000000#64)].map
        (fun (ty, qv) =>
          let a0 := (unnormalized (vectorParams shelfA) nan { vectorInputs ty 0#2 with qval := qv }).a0
          (F64.isNaN a0, F64.isZero a0, F64.isInf a0, F64.sign a0)) =
      [(false, false, false, false), (false, false, false, true), (false, false, true, false)] := by decide +kernel

/-- The inputs of V1 and V2 without normalization, whose `b1` is finite. -/
theorem witness_CosineTermsDouble :
    quietSupply nan ∧ F64.isNaN (nan 0) = true ∧
    [0#4, 1#4].map (fun ty =>
        let S := { vectorInputs ty 0#2 with ctrl := ⟨ty, 0#2, false, 0#4⟩ }
        (S.ctrl.norm, S.ctrl.ftype.toNat, F64.isFinite (derive (vectorParams shelfA) nan S).b1)) =
      [(false, 0, true), (false, 1, true)] := ⟨quietSupply_nan, by decide +kernel, by decide +kernel⟩

/-- Functions that give a NaN for a NaN operand, but for a power of 1.0, which is 1.0 as IEEE 754's `pow` has it. -/
def lastOperand : Params :=
  { Config.params with
    sin := fun x => x
    cos := fun x => x
    sinh := fun x => x
    pow := fun x y => if x = F64.one then F64.one else y }

theorem witness_DeterministicUpToNaN :
    (∀ x, F64.isNaN x = true → F64.isNaN (lastOperand.sin x) = true ∧ F64.isNaN (lastOperand.cos x) = true ∧
      F64.isNaN (lastOperand.sinh x) = true ∧ F64.isNaN (lastOperand.pow F64.ten x) = true) ∧
    lastOperand.pow F64.one (nan 0) = F64.one ∧ quietSupply nan ∧ quietSupply (fun _ => F64.quietNaN 1#52) :=
  ⟨fun _ h => ⟨h, h, h, h⟩, rfl, quietSupply_nan, fun _ => ⟨1#52, rfl⟩⟩

theorem witness_ResetValuesDeriveNaN :
    (∀ x, F64.isNaN x = true → F64.isNaN (lastOperand.sin x) = true ∧ F64.isNaN (lastOperand.cos x) = true) ∧
    quietSupply nan := ⟨fun _ h => ⟨h, h⟩, quietSupply_nan⟩

/-- Operands at the ends of the range: the smallest subnormal, the largest finite value, a zero, and both infinities. -/
theorem witness_finite_operands :
    F64.isFinite 0x0000000000000001#64 = true ∧ F64.isFinite 0xFFEFFFFFFFFFFFFF#64 = true ∧
    F64.isZero 0x0000000000000001#64 = false ∧ F64.isZero 0x8000000000000000#64 = true ∧
    0 < F64.units 0x0000000000000001#64 ∧ F64.isInf 0xFFF0000000000000#64 = true ∧
    F64.isNaN 0x7FF0000000000001#64 = true ∧ F64.sign 0xFFF0000000000000#64 = true ∧
    F64.isInf 0x7FF0000000000000#64 = true ∧ F64.sign 0x7FF0000000000000#64 = false := by decide +kernel

theorem witness_ScalingIsExact :
    F64.isFinite 0x7E8FFFFFFFFFFFFF#64 = true ∧ F64.mag 0x7E8FFFFFFFFFFFFF#64 < 2 ^ 2076 := by decide +kernel

theorem witness_NonfiniteValues :
    F64.isNaN 0x7FF8000000000000#64 = true ∧ F64.isInf 0xFFF0000000000000#64 = true ∧
    F64.isFinite 0x7E90000000000000#64 = true ∧ 2 ^ 2076 ≤ F64.mag 0x7E90000000000000#64 := by decide +kernel

theorem witness_WideAndMasked :
    (-(2 ^ 31) ≤ (-2147483648 : Int) ∧ (-2147483648 : Int) ≤ 2 ^ 31 - 1) ∧ 2 ^ 31 - 1 < (2147483648 : Int) ∧
    Config.params.qWide = .wrap ∧ { Config.params with qWide := .zero }.qWide = .zero := by
  refine ⟨by decide, by decide, rfl, rfl⟩

theorem witness_SignedReading :
    F64.isFinite 0xC000000000000000#64 = true ∧ -(2 * 2 ^ 1074) ≤ F64.units 0xC000000000000000#64 ∧
    F64.units 0xC000000000000000#64 < 2 * 2 ^ 1074 ∧ F64.units 0x3FFFFFFFFFFFFFFF#64 < 2 * 2 ^ 1074 := by
  decide +kernel

theorem witness_ResetDiscards :
    ¬ (busyFor .runReal 1 [.reset]).engineDue ∧ (busyFor .runReal 1 [.reset]).host = .reset :: [] :=
  ⟨busy_not_due _ 0 _, rfl⟩

theorem witness_StepKeepsConsistency :
    (busyFor .convReal 0 []).Inv ∧ holdsNext (step (busyFor .convReal 0 [])) (fun _ => true) = true :=
  ⟨⟨rfl, by rintro p hp; cases hp; exact ⟨rfl, rfl, rfl⟩⟩, by decide +kernel⟩

theorem witness_ErrorStays :
    { idle [wr .cmd 0#32] with err := true }.err = true ∧
    holdsNext (step { idle [wr .cmd 0#32] with err := true }) (fun t => t.err == false) = true ∧
    holdsNext (step { idle [.reset] with err := true }) (fun t => t.err == false) = true := by decide +kernel

theorem witness_ResultsAreStable :
    holdsNext (step (idle [wr (.coefR .a0 .lo) 1#32])) (fun t => t.coefR != State.reset.coefR) = true ∧
    ¬ (idle [wr (.coefR .a0 .lo) 1#32]).engineDue ∧ (∀ rest, (idle [wr (.coefR .a0 .lo) 1#32]).host ≠ .reset :: rest) :=
  ⟨by decide +kernel, idle_not_due _, fun rest h => by cases h⟩

theorem witness_FrozenWhileBusy :
    (busyFor .runReal 1 [wr .ctrl 0#32]).busy = true ∧
    holdsNext (step (busyFor .runReal 1 [wr .ctrl 0#32])) (fun _ => true) = true ∧
    (∀ rest, (busyFor .runReal 1 [wr .ctrl 0#32]).host ≠ .reset :: rest) ∧
    ¬ (busyFor .runReal 1 [wr .ctrl 0#32]).engineDue :=
  ⟨rfl, by decide +kernel, fun rest h => (by cases h), busy_not_due _ 0 _⟩

/-- An idle host breaks no hazard rule, and neither does a poll of `STATUS` while busy. -/
theorem witness_HazardFreeHostLosesNothing :
    (¬ (idle [wr .ctrl 0#32]).hazard ∧ ¬ (idle [wr .ctrl 0#32]).engineDue) ∧
    (¬ (busyFor .runReal 1 [rd .status]).hazard ∧ ¬ (busyFor .runReal 1 [rd .status]).engineDue) := by
  refine ⟨⟨?_, idle_not_due _⟩, ?_, busy_not_due _ 0 _⟩
  · rintro ⟨hb, -⟩; cases hb
  · rintro ⟨-, r, rest, ⟨v, h, -⟩ | ⟨h, hr⟩⟩
    · cases h
    · have ho : rd .status = rd r := by injection h
      cases r with
      | coefR k g => cases k <;> cases g <;> revert ho <;> decide
      | coefQ k => cases k <;> revert ho <;> decide
      | pack j => clear h hr; revert j; decide
      | _ => cases hr

theorem witness_CompletionIsTaken :
    (busyFor .runReal 2 [.poll]).pend = some ⟨.runReal, (idle [.poll]).snapshot, 2⟩ ∧
    { busyFor .runReal 2 [.poll] with policy := .records }.policy = .records ∧
    HostOp.reset ∉ (busyFor .runReal 2 [.poll]).host := ⟨rfl, rfl, by decide⟩

theorem witness_LatencyIsNotSeen :
    (busyFor .runReal 7 []).pend = some ⟨.runReal, (idle []).snapshot, 7⟩ ∧ (busyFor .runReal 7 []).host = [] :=
  ⟨rfl, rfl⟩

theorem witness_PollEnds : (busyFor .runReal 2 [.poll, rd .status]).host = .poll :: [rd .status] := rfl

end Sys2Proof.Tests
end

section
/-! PROOFS. The reset values (spec 10_state.md rule R30). -/

namespace Sys2Proof.Machine

/-- Every byte of the zero triple is zero, at any index. -/
@[simp] theorem Triple.byte_zero (i : Nat) : (Triple.mk 0#8 0#8 0#8).byte i = 0#8 := by
  unfold Triple.byte
  split <;> rfl

/-- Zero coefficients pack to zero bytes (R47); the elements past the last coefficient are zero in any case (R71). -/
@[simp] theorem packedByte_fill_zero (n : Nat) : packedByte (Six.fill ⟨0#8, 0#8, 0#8⟩) n = 0#8 := by
  unfold packedByte
  split
  · rw [Six.get_fill, Triple.byte_zero]
  · rfl

/-- A `PACK` word whose bytes are all zero is zero (R71). -/
theorem packWord_eq_zero {p : Six Triple} (h : ∀ n, packedByte p n = 0#8) (j : Nat) : packWord p j = 0#32 := by
  simp only [packWord, h]
  rfl

theorem reset_param (p : Param) : State.reset.param p = 0#64 := by cases p <;> rfl

theorem reset_packedByte (n : Nat) : packedByte State.reset.pack n = 0#8 := packedByte_fill_zero n

/-- Settles O49: each row of the table of R30, the `PACK` words from their 18 bytes. -/
theorem resetValues : Obligations.ResetValues := by
  unfold Obligations.ResetValues
  have hctrl : State.reset.value .ctrl = 0x00000100#32 := by decide
  have hstatus : State.reset.value .status = 0x00000000#32 := by decide
  have hpack (j : Fin 5) : State.reset.value (.pack j) = 0x00000000#32 := packWord_eq_zero reset_packedByte j
  exact ⟨hctrl, reset_param, Six.get_fill 0#64, Six.get_fill 0#24, reset_packedByte, hpack, hstatus, rfl⟩

end Sys2Proof.Machine
end

section
/-! PROOFS. The turn of the host while no completion is due, and the register an aligned access reaches (spec
20_memory.md rules R41 to R44, R51). -/

namespace Sys2Proof.Machine

/-! ### The block is the same -/

theorem sameBlock_receive (r : Response) (s : State) : sameBlock s (s.receive r) := by
  simp [sameBlock, sameInputs, sameResults, State.inFlight]

theorem sameBlock_nextDraw (s : State) : sameBlock s s.nextDraw := by
  simp [sameBlock, sameInputs, sameResults, State.inFlight]

theorem sameBlock.trans {s t u : State} (hst : sameBlock s t) (htu : sameBlock t u) : sameBlock s u := by
  simp_all [sameBlock, sameInputs, sameResults]

/-- Busy is a property of the block. -/
theorem sameBlock.busy_eq {s t : State} (h : sameBlock s t) : t.busy = s.busy := by
  obtain ⟨-, -, -, -, hpend⟩ := h
  have hp := congrArg Option.isSome hpend
  simpa [State.inFlight, State.busy] using hp

/-- What a register reads as is a property of the block (R45). -/
theorem sameBlock.value_eq {s t : State} (h : sameBlock s t) (r : Reg) : t.value r = s.value r := by
  have hb := h.busy_eq
  obtain ⟨⟨hctrl, hfreq, hgain, hsrate, hqval⟩, ⟨hcoefR, hcoefQ, hpack⟩, hdone, herr, -⟩ := h
  cases r with
  | param p _ => cases p <;> simp [State.value, State.param, *]
  | _ => simp [State.value, State.statusWord, *]

/-! ### The state that the host's next line meets -/

/-- `s` with its first line taken, `rest` left, and a command in flight one host turn nearer to completion (R188). -/
def State.afterTake (s : State) (rest : List HostOp) : State :=
  (s.setPend (s.pend.map InFlight.elapse)).setHost rest

section afterTake

variable (s : State) (rest : List HostOp)

@[simp] theorem State.afterTake_host : (s.afterTake rest).host = rest := rfl
@[simp] theorem State.afterTake_seen : (s.afterTake rest).seen = s.seen := rfl
@[simp] theorem State.afterTake_policy : (s.afterTake rest).policy = s.policy := rfl

theorem State.sameBlock_afterTake : sameBlock s (s.afterTake rest) := by
  have helapse : (fun p : InFlight => (p.kind, p.snap)) ∘ InFlight.elapse = fun p => (p.kind, p.snap) := rfl
  simp [sameBlock, sameInputs, sameResults, State.inFlight, State.afterTake, helapse]

end afterTake

/-- For an idle block, taking a line changes the host's lines alone. -/
theorem State.afterTake_of_idle {s : State} (h : s.busy = false) (rest : List HostOp) :
    s.afterTake rest = s.setHost rest := by
  have hp := s.busy_eq_false_iff.mp h
  obtain ⟨⟩ := s
  subst hp
  rfl

/-- While no completion is due, a step performs the host's next line (R51). -/
theorem step_eq_performLine {s : State} {op : HostOp} {rest : List HostOp} (hdue : ¬ s.engineDue)
    (hhost : s.host = op :: rest) : step s = performLine exec op (s.afterTake rest) := by
  unfold step
  obtain ⟨hp, ht⟩ | ⟨p, hp, hturns, -⟩ | ⟨p, hp, -, ht⟩ := turn_cases exec s
  · simp [ht, hostTurn, hhost, s.afterTake_of_idle (s.busy_eq_false_iff.mpr hp)]
  · exact absurd ⟨p, hp, hturns⟩ hdue
  · simp [ht, hostTurn, hhost, State.afterTake, hp]

/-! ### Which register an offset reaches -/

theorem Reg.mem_all (r : Reg) : r ∈ Reg.all := by
  cases r with
  | param p h => cases p <;> cases h <;> simp [Reg.all]
  | coefR k h => cases k <;> cases h <;> simp [Reg.all, Coef.all]
  | coefQ k => cases k <;> simp [Reg.all, Coef.all]
  | pack j => fin_cases j <;> simp [Reg.all]
  | _ => simp [Reg.all]

theorem Reg.atOffset_offset (r : Reg) : Reg.atOffset r.offset = some r := by
  have h : ∀ r ∈ Reg.all, Reg.atOffset r.offset = some r := by decide
  exact h r r.mem_all

theorem Reg.offset_aligned (r : Reg) : r.offset.toNat % 4 = 0 := by
  have h : ∀ r ∈ Reg.all, r.offset.toNat % 4 = 0 := by decide
  exact h r r.mem_all

/-- An offset that is no register's is unmapped (R44). -/
theorem Reg.atOffset_eq_none {off : Offset} (h : ∀ r : Reg, r.offset ≠ off) : Reg.atOffset off = none := by
  simp [Reg.atOffset, h]

/-- A 32-bit access at a register's offset reaches it. -/
theorem checkAccess_offset (r : Reg) : checkAccess .w32 r.offset = .ok r := by
  simp [checkAccess, r.offset_aligned, r.atOffset_offset]

/-! ### Bus errors -/

/-- `f` is the bus error that R42, R43 and R44, in the order of R166, give an access. -/
def BusErrorOf (w : Width) (off : Offset) (f : Fault) : Prop :=
  (w ≠ .w32 ∧ f = .busWidth off) ∨ (w = .w32 ∧ off.toNat % 4 ≠ 0 ∧ f = .busMisaligned off) ∨
    (w = .w32 ∧ off.toNat % 4 = 0 ∧ (∀ r : Reg, r.offset ≠ off) ∧ f = .busUnmapped off)

/-- The access checks give exactly the bus errors of R42 to R44. -/
theorem BusErrorOf.checkAccess_eq {w : Width} {off : Offset} {f : Fault} (h : BusErrorOf w off f) :
    checkAccess w off = .error f := by
  obtain ⟨hw, rfl⟩ | ⟨rfl, ha, rfl⟩ | ⟨rfl, ha, hunmapped, rfl⟩ := h
  · simp [checkAccess, hw]
  · simp [checkAccess, ha]
  · simp [checkAccess, ha, Reg.atOffset_eq_none hunmapped]

/-- A read or a write that fails the checks is answered with the bus error alone. -/
theorem performLine_of_error {w : Width} {off : Offset} {f : Fault} {op : HostOp}
    (hop : op = .read w off ∨ ∃ v, op = .write w off v) (h : checkAccess w off = .error f)
    (run : Instr → State → Result) (s : State) : performLine run op s = busError f s := by
  obtain rfl | ⟨v, rfl⟩ := hop <;> simp [performLine, h]

/-- While no completion is due, the step of a failed access is the bus error. -/
theorem step_of_error {s : State} {op : HostOp} {rest : List HostOp} {w : Width} {off : Offset} {f : Fault}
    (hdue : ¬ s.engineDue) (hhost : s.host = op :: rest) (hop : op = .read w off ∨ ∃ v, op = .write w off v)
    (h : checkAccess w off = .error f) : step s = busError f (s.afterTake rest) := by
  rw [step_eq_performLine hdue hhost, performLine_of_error hop h]

/-- Settles O8: the failed check answers the access, and `busError` leaves the block as it is under either policy. -/
theorem busErrors : Obligations.BusErrors := by
  unfold Obligations.BusErrors
  intro s op w off rest f hdue hhost hop hcause
  have hcheck : checkAccess w off = .error f := BusErrorOf.checkAccess_eq hcause
  rw [step_of_error hdue hhost hop hcheck]
  obtain ⟨-, hstop⟩ | ⟨-, hrecord⟩ := busError_cases f (s.afterTake rest)
  · exact .inl hstop
  · exact .inr ⟨_, hrecord, (s.sameBlock_afterTake rest).trans (sameBlock_receive _ _), rfl, rfl, rfl⟩

end Sys2Proof.Machine
end

section
/-! PROOFS. What a read returns (spec 20_memory.md rule R45). -/

namespace Sys2Proof.Machine

/-! ### The words of the registers as numbers -/

/-- A joined bit vector, as a number. -/
theorem toNat_append_eq_add {n m : Nat} (x : BitVec n) (y : BitVec m) :
    (x ++ y).toNat = x.toNat * 2 ^ m + y.toNat := by
  rw [BitVec.toNat_append, ← Nat.shiftLeft_add_eq_or_of_lt y.isLt, Nat.shiftLeft_eq]

theorem halfOf_lo_toNat (x : Binary64) : (halfOf x .lo).toNat = x.toNat % 2 ^ 32 := by
  simp [halfOf]

theorem halfOf_hi_toNat (x : Binary64) : (halfOf x .hi).toNat = x.toNat / 2 ^ 32 := by
  have h : x.toNat / 2 ^ 32 < 2 ^ 32 := Nat.div_lt_of_lt_mul x.isLt
  rw [halfOf, BitVec.extractLsb'_toNat, Nat.shiftRight_eq_div_pow, Nat.mod_eq_of_lt h]

theorem Ctrl.word_toNat (c : Ctrl) :
    c.word.toNat = c.quirk.toNat * 2 ^ 12 + c.norm.toNat * 2 ^ 8 + c.qopt.toNat * 2 ^ 4 + c.ftype.toNat := by
  simp only [Ctrl.word, toNat_append_eq_add, BitVec.toNat_ofBool, BitVec.toNat_ofNat]
  omega

theorem State.statusWord_toNat (s : State) :
    s.statusWord.toNat = s.err.toNat * 4 + s.done.toNat * 2 + s.busy.toNat := by
  simp only [State.statusWord, toNat_append_eq_add, BitVec.toNat_ofBool, BitVec.toNat_ofNat]
  omega

theorem packWord_toNat (p : Six Triple) (j : Nat) :
    (packWord p j).toNat = (packedByte p (4 * j + 3)).toNat * 2 ^ 24 + (packedByte p (4 * j + 2)).toNat * 2 ^ 16
      + (packedByte p (4 * j + 1)).toNat * 2 ^ 8 + (packedByte p (4 * j)).toNat := by
  simp only [packWord, toNat_append_eq_add]
  omega

/-! ### The read -/

/-- A read is exact but for a result register of a busy block (R45). -/
theorem readWord_eq_value {r : Reg} {s : State} (h : r.isResult = false ∨ s.busy = false) :
    readWord r s = s.value r := by
  obtain h | h := h <;> simp [readWord, h]

/-- A read gives the host its word, and the block is the same (R45). -/
theorem readReg_effect (r : Reg) (s : State) :
    sameBlock s (readReg r s) ∧ (readReg r s).host = s.host ∧ (readReg r s).policy = s.policy ∧
      (readReg r s).seen = .data (readWord r s) :: s.seen := by
  obtain h | ⟨-, -, h⟩ := readReg_cases r s <;> rw [h]
  · exact ⟨sameBlock_receive _ _, rfl, rfl, rfl⟩
  · exact ⟨(sameBlock_receive _ _).trans (sameBlock_nextDraw _), rfl, rfl, rfl⟩

/-- While no completion is due, the host's `RD` reads the register. -/
theorem step_rd {s : State} {r : Reg} {rest : List HostOp} (hdue : ¬ s.engineDue) (hhost : s.host = rd r :: rest) :
    step s = .next (readReg r (s.afterTake rest)) := by
  rw [step_eq_performLine hdue hhost]
  simp [performLine, rd, checkAccess_offset]

/-- Settles O10: the word read is the register's, and each register's word is the number R45 gives. -/
theorem readReturns : Obligations.ReadReturns := by
  unfold Obligations.ReadReturns
  intro s r rest hdue hhost
  have hsame := s.sameBlock_afterTake rest
  obtain ⟨hblock, hhost', hpolicy, hseen⟩ := readReg_effect r (s.afterTake rest)
  refine ⟨_, _, step_rd hdue hhost, hsame.trans hblock, hhost', hpolicy, hseen, fun hexact => ?_⟩
  have hword : readWord r (s.afterTake rest) = s.value r :=
    (readWord_eq_value (hexact.imp_right hsame.busy_eq.trans)).trans (hsame.value_eq r)
  rw [hword]
  cases r with
  | ctrl => exact s.ctrl.word_toNat
  | cmd => rfl
  | status => exact s.statusWord_toNat
  | param p h =>
    cases h with
    | lo => exact halfOf_lo_toNat _
    | hi => exact halfOf_hi_toNat _
  | coefR k h =>
    cases h with
    | lo => exact halfOf_lo_toNat _
    | hi => exact halfOf_hi_toNat _
  | coefQ k => exact BitVec.toNat_setWidth_of_le (by decide)
  | pack j => exact packWord_toNat _ _

end Sys2Proof.Machine
end

section
/-! PROOFS. What a write does (spec 20_memory.md rule R46). -/

namespace Sys2Proof.Machine

/-! ### What a store replaces, and what it leaves unchanged -/

section storeReg

variable (r : Reg) (v : Word) (s : State)

@[simp] theorem storeReg_ctrl : storeReg .ctrl v s = s.setCtrl (Ctrl.ofWord v) := rfl
@[simp] theorem storeReg_param (p : Param) (h : Half) :
    storeReg (.param p h) v s = s.setParam p (withHalf (s.param p) h v) := rfl
@[simp] theorem storeReg_coefR (k : Coef) (h : Half) :
    storeReg (.coefR k h) v s = s.setCoefR (s.coefR.set k (withHalf (s.coefR.get k) h v)) := rfl

@[simp] theorem storeReg_host : (storeReg r v s).host = s.host := by cases r <;> simp [storeReg]
@[simp] theorem storeReg_policy : (storeReg r v s).policy = s.policy := by cases r <;> simp [storeReg]
@[simp] theorem storeReg_seen : (storeReg r v s).seen = s.seen := by cases r <;> simp [storeReg]
@[simp] theorem storeReg_done : (storeReg r v s).done = s.done := by cases r <;> simp [storeReg]
@[simp] theorem storeReg_err : (storeReg r v s).err = s.err := by cases r <;> simp [storeReg]
@[simp] theorem storeReg_pend : (storeReg r v s).pend = s.pend := by cases r <;> simp [storeReg]
@[simp] theorem storeReg_coefQ : (storeReg r v s).coefQ = s.coefQ := by cases r <;> simp [storeReg]
@[simp] theorem storeReg_pack : (storeReg r v s).pack = s.pack := by cases r <;> simp [storeReg]

end storeReg

/-! ### The word replaced, as a number -/

theorem withHalf_lo_toNat (x : Binary64) (v : Word) :
    (withHalf x .lo v).toNat = x.toNat / 2 ^ 32 * 2 ^ 32 + v.toNat := by
  rw [← halfOf_hi_toNat]
  exact toNat_append_eq_add _ _

theorem withHalf_hi_toNat (x : Binary64) (v : Word) :
    (withHalf x .hi v).toNat = v.toNat * 2 ^ 32 + x.toNat % 2 ^ 32 := by
  rw [← halfOf_lo_toNat]
  exact toNat_append_eq_add _ _

/-! ### The write -/

/-- While no completion is due, the host's `WR` has its response and writes the register. -/
theorem step_wr {s : State} {r : Reg} {v : Word} {rest : List HostOp} (hdue : ¬ s.engineDue)
    (hhost : s.host = wr r v :: rest) : step s = writeReg exec r v ((s.afterTake rest).receive .written) := by
  rw [step_eq_performLine hdue hhost]
  simp [performLine, wr, checkAccess_offset]

/-- A read-only register ignores a write, and a busy block does (R46). -/
theorem writeReg_ignored {r : Reg} {s : State} (h : r.readOnly = true ∨ s.busy = true)
    (run : Instr → State → Result) (v : Word) : writeReg run r v s = .next s := by
  obtain h | h := h <;> simp [writeReg, h]

/-- An idle block presents a word written to `CMD` (R46). -/
theorem writeReg_cmd {s : State} (h : s.busy = false) (run : Instr → State → Result) (v : Word) :
    writeReg run .cmd v s = run (decode v) s := by
  simp [writeReg, Reg.readOnly, h]

/-- An idle block stores a word written to any other writable register (R46). -/
theorem writeReg_stored {r : Reg} {s : State} (hr : r.readOnly = false) (hcmd : r ≠ .cmd) (h : s.busy = false)
    (run : Instr → State → Result) (v : Word) : writeReg run r v s = .next (storeReg r v s) := by
  simp [writeReg, hr, hcmd, h]

/-- Settles O11: a write is presented, ignored or stored, and a store replaces the word written alone. -/
theorem writeStores : Obligations.WriteStores := by
  unfold Obligations.WriteStores
  intro s r v rest hdue hhost
  rw [step_wr hdue hhost]
  constructor
  · rintro rfl hidle
    rw [State.afterTake_of_idle hidle, writeReg_cmd (by simpa using hidle)]
  intro hcmd
  have hsame : sameBlock s ((s.afterTake rest).receive .written) :=
    (s.sameBlock_afterTake rest).trans (sameBlock_receive _ _)
  by_cases hignored : r.readOnly = true ∨ s.busy = true
  · refine ⟨_, writeReg_ignored (hignored.imp_right hsame.busy_eq.trans) exec v, rfl, rfl, rfl, fun _ => hsame, ?_⟩
    intro hwritable hidle
    simp [hwritable, hidle] at hignored
  · obtain ⟨hwritable, hidle⟩ : r.readOnly = false ∧ s.busy = false := by simpa using hignored
    have hne : r ≠ .cmd := hcmd.resolve_right (by simp [hidle])
    rw [State.afterTake_of_idle hidle, writeReg_stored hwritable hne (by simpa using hidle)]
    refine ⟨_, rfl, by simp, by simp, by simp, fun h => absurd h hignored, fun _ _ => ?_⟩
    refine ⟨by simp, by simp, by simp [State.inFlight], by simp, by simp, ?_, ?_, ?_⟩
    · rintro rfl
      exact ⟨rfl, by simp, rfl⟩
    · rintro p h rfl
      refine ⟨by simp, by simp, fun q hq => by simp [State.param_setParam_of_ne _ hq], ?_, ?_⟩ <;> rintro rfl
      · simpa using withHalf_lo_toNat (s.param p) v
      · simpa using withHalf_hi_toNat (s.param p) v
    · rintro k h rfl
      refine ⟨rfl, by simp, fun l hl => by simp [Six.get_set_of_ne _ hl], ?_, ?_⟩ <;> rintro rfl
      · simpa using withHalf_lo_toNat (s.coefR.get k) v
      · simpa using withHalf_hi_toNat (s.coefR.get k) v

end Sys2Proof.Machine
end

section
/-! PROOFS. The fields of a command word and the reserved bits (spec 30_encoding.md rules R65 to R68, R76, R77). -/

namespace Sys2Proof

/-! ### The fields of a command word as numbers -/

theorem selField_eq_ofNat (v : Word) : selField v = BitVec.ofNat 8 v.toNat := rfl

theorem selField_toNat (v : Word) : (selField v).toNat = v.toNat % 256 := rfl

theorem convField_eq_decide (v : Word) : convField v = decide (v.toNat / 256 % 2 = 1) := by
  rw [convField, BitVec.getLsbD, Nat.testBit_eq_decide_div_mod_eq]

/-! ### What a command word decodes to, by its fields -/

/-- A selector past the three valid ones (R75). -/
theorem decode_of_invalid_sel {v : Word} (hsel : 2 < (selField v).toNat) :
    decode v = .invalidSel (selField v) (convField v) := by
  simp [decode, hsel]

/-- A valid selector with `CONV` = 0 (R66). -/
theorem decode_of_conv_clear {v : Word} (hconv : convField v = false) :
    ((selField v).toNat = 0 → decode v = .runReal) ∧ ((selField v).toNat = 1 → decode v = .runFixed) ∧
      ((selField v).toNat = 2 → decode v = .runBytes) := by
  refine ⟨?_, ?_, ?_⟩ <;> intro hsel <;> simp [decode, hsel, hconv]

/-- A valid selector with `CONV` = 1 (R67). -/
theorem decode_of_conv_set {v : Word} (hconv : convField v = true) :
    ((selField v).toNat = 0 → decode v = .convReal) ∧ ((selField v).toNat = 1 → decode v = .convFixed) ∧
      ((selField v).toNat = 2 → decode v = .convBytes) := by
  refine ⟨?_, ?_, ?_⟩ <;> intro hsel <;> simp [decode, hsel, hconv]

/-- The two fields are all that is decoded. -/
theorem decode_congr {v w : Word} (hsel : selField v = selField w) (hconv : convField v = convField w) :
    decode v = decode w := by
  simp only [decode, hsel, hconv]

/-- Bits 31:9 are not decoded (R76). -/
theorem decode_eq_of_low_bits_eq {v w : Word} (h : ∀ i, i < 9 → v.getLsbD i = w.getLsbD i) : decode v = decode w := by
  have hsel : selField v = selField w := by
    ext i hi
    simpa [selField, hi] using h i (by omega)
  exact decode_congr hsel (h 8 (by decide))

/-- Settles O2: the clauses of R77 are those of `decode` by its two fields; the canonical words are `encode`'s. -/
theorem decodeByFields : Obligations.DecodeByFields := by
  unfold Obligations.DecodeByFields
  simp only [← selField_toNat, ← selField_eq_ofNat, ← convField_eq_decide]
  refine ⟨fun v => ⟨fun hsel => ?_, fun hconv => ?_, fun hconv => ?_⟩, rfl, rfl, rfl, rfl, rfl, rfl⟩
  · exact decode_of_invalid_sel hsel
  · exact decode_of_conv_clear (by simp [convField_eq_decide, hconv])
  · exact decode_of_conv_set (by simp [convField_eq_decide, hconv])

end Sys2Proof

namespace Sys2Proof.Machine

/-! ### The bits of `CTRL` and `STATUS` -/

/-- The bits of `CTRL` that hold a field (R60). -/
def Ctrl.mask : Word := 0x0000F13F#32

/-- A field of bits that are all stored reads as written. -/
theorem extractLsb'_and_mask_of_stored (v : Word) {start len : Nat}
    (h : Ctrl.mask.extractLsb' start len = BitVec.allOnes len) :
    (v &&& Ctrl.mask).extractLsb' start len = v.extractLsb' start len := by
  rw [BitVec.extractLsb'_and, h, BitVec.and_allOnes]

/-- A field of bits that are not stored reads as 0. -/
theorem extractLsb'_and_mask_of_dropped (v : Word) {start len : Nat} (h : Ctrl.mask.extractLsb' start len = 0#len) :
    (v &&& Ctrl.mask).extractLsb' start len = 0#len := by
  rw [BitVec.extractLsb'_and, h, BitVec.and_zero]

/-- A word is its fields, cut as `Ctrl.word` joins them (R60). -/
theorem join_ctrl_fields (v : Word) :
    v.extractLsb' 16 16 ++ v.extractLsb' 12 4 ++ v.extractLsb' 9 3 ++ v.extractLsb' 8 1 ++ v.extractLsb' 6 2
      ++ v.extractLsb' 4 2 ++ v.extractLsb' 0 4 = v := by
  simp only [BitVec.extractLsb'_append_extractLsb'_eq_extractLsb']
  exact BitVec.extractLsb'_eq_self

/-- `NORM` as a field of one bit. -/
theorem ofBool_getLsbD_eq_extractLsb' (v : Word) (i : Nat) : BitVec.ofBool (v.getLsbD i) = v.extractLsb' i 1 := by
  ext j hj
  obtain rfl : j = 0 := by omega
  simp

/-- `CTRL` keeps the bits of its fields and reads 0 in the others (R76). -/
theorem Ctrl.word_ofWord (v : Word) : (Ctrl.ofWord v).word = v &&& Ctrl.mask := by
  rw [← join_ctrl_fields (v &&& Ctrl.mask)]
  have h16 : (v &&& Ctrl.mask).extractLsb' 16 16 = 0#16 := extractLsb'_and_mask_of_dropped v rfl
  have h12 : (v &&& Ctrl.mask).extractLsb' 12 4 = v.extractLsb' 12 4 := extractLsb'_and_mask_of_stored v rfl
  have h9 : (v &&& Ctrl.mask).extractLsb' 9 3 = 0#3 := extractLsb'_and_mask_of_dropped v rfl
  have h8 : (v &&& Ctrl.mask).extractLsb' 8 1 = v.extractLsb' 8 1 := extractLsb'_and_mask_of_stored v rfl
  have h6 : (v &&& Ctrl.mask).extractLsb' 6 2 = 0#2 := extractLsb'_and_mask_of_dropped v rfl
  have h4 : (v &&& Ctrl.mask).extractLsb' 4 2 = v.extractLsb' 4 2 := extractLsb'_and_mask_of_stored v rfl
  have h0 : (v &&& Ctrl.mask).extractLsb' 0 4 = v.extractLsb' 0 4 := extractLsb'_and_mask_of_stored v rfl
  rw [h16, h12, h9, h8, h6, h4, h0, ← ofBool_getLsbD_eq_extractLsb']
  rfl

theorem value_ctrl_storeReg (s : State) (v : Word) : (storeReg .ctrl v s).value .ctrl = v &&& Ctrl.mask :=
  Ctrl.word_ofWord v

/-- Bits 31:3 of `STATUS` are 0 (R68). -/
theorem State.statusWord_getLsbD_of_ge (s : State) {i : Nat} (hi : 3 ≤ i) : s.statusWord.getLsbD i = false := by
  have hlt : s.statusWord.toNat < 2 ^ 3 := by
    have := s.err.toNat_lt
    have := s.done.toNat_lt
    have := s.busy.toNat_lt
    rw [s.statusWord_toNat]
    omega
  exact Nat.testBit_lt_two_pow (hlt.trans_le (Nat.pow_le_pow_right (by decide) hi))

/-- Settles O6: a read of `CTRL` is the written word masked, a word decodes by bits 8:0, and `STATUS` is below 8. -/
theorem reservedBits : Obligations.ReservedBits := by
  unfold Obligations.ReservedBits
  exact ⟨value_ctrl_storeReg, fun _ _ => decode_eq_of_low_bits_eq, fun s _ => s.statusWord_getLsbD_of_ge⟩

end Sys2Proof.Machine
end

section
/-! PROOFS. The unrecognized codes of `CTRL` (spec 30_encoding.md rules R72 to R74). -/

namespace Sys2Proof.Machine

open Sys2Proof.Config (Params)

/-- Every code from 9 on selects Peaking (R72). -/
theorem filterType_of_ge {c : BitVec 4} (h : 9 ≤ c.toNat) : filterType c = .peaking := by
  revert c
  decide

/-- The derivation sees the codes of `CTRL` in what they select alone, and `QUIRK` not at all (R74, R104). -/
theorem derive_congr (P : Params) (n : Nat → Binary64) (S : Snapshot) {c d : Ctrl}
    (hftype : filterType c.ftype = filterType d.ftype) (hqopt : qOption c.qopt = qOption d.qopt)
    (hnorm : c.norm = d.norm) : derive P n { S with ctrl := c } = derive P n { S with ctrl := d } := by
  simp only [derive, unnormalized, quirkPass, hftype, hqopt, hnorm]

/-- A field that lies inside the mask reads back as written. -/
theorem extractLsb'_value_ctrl_storeReg (s : State) (v : Word) {start len : Nat}
    (h : Ctrl.mask.extractLsb' start len = BitVec.allOnes len) :
    ((storeReg .ctrl v s).value .ctrl).extractLsb' start len = v.extractLsb' start len := by
  rw [value_ctrl_storeReg, extractLsb'_and_mask_of_stored v h]

/-- Settles O31: the code and the one it acts as select the same, and the three fields lie inside the mask. -/
theorem unrecognizedCodes : Obligations.UnrecognizedCodes := by
  unfold Obligations.UnrecognizedCodes
  refine ⟨fun P n S c hc => ?_, fun P n S => ?_, fun P n S c => ?_, fun s v => ⟨?_, ?_, ?_⟩⟩
  · have hftype : filterType c = filterType 6#4 := filterType_of_ge hc
    exact derive_congr P n S hftype rfl rfl
  · have hqopt : qOption 3#2 = qOption 1#2 := rfl
    exact derive_congr P n S rfl hqopt rfl
  · exact derive_congr P n S rfl rfl rfl
  · exact extractLsb'_value_ctrl_storeReg s v rfl
  · exact extractLsb'_value_ctrl_storeReg s v rfl
  · exact extractLsb'_value_ctrl_storeReg s v rfl

end Sys2Proof.Machine
end

section
/-! PROOFS. The five packed words (spec 30_encoding.md rule R71). -/

namespace Sys2Proof.Machine

/-- The coefficient of an index. -/
@[simp] theorem coefAt_index (k : Coef) : coefAt k.index = some k := by cases k <;> rfl

/-- The PackedBytes elements of a coefficient are the bytes of its triple (R47). -/
theorem packedByte_of_coef (p : Six Triple) (k : Coef) {i : Nat} (hi : i < 3) :
    packedByte p (3 * k.index + i) = (p.get k).byte i := by
  have hdiv : (3 * k.index + i) / 3 = k.index := by omega
  have hmod : (3 * k.index + i) % 3 = i := by omega
  simp only [packedByte, hdiv, hmod, coefAt_index]

/-- The elements past the last coefficient are 0 (R71). -/
theorem packedByte_of_ge (p : Six Triple) {n : Nat} (hn : 18 ≤ n) : packedByte p n = 0#8 := by
  have hindex : coefAt (n / 3) = none := by
    obtain ⟨m, hm⟩ := Nat.exists_eq_add_of_le (show 6 ≤ n / 3 by omega)
    rw [hm, Nat.add_comm]
    rfl
  simp only [packedByte, hindex]

theorem packWord_of_bytes {p : Six Triple} {j : Nat} {b0 b1 b2 b3 : Byte} (h0 : packedByte p (4 * j) = b0)
    (h1 : packedByte p (4 * j + 1) = b1) (h2 : packedByte p (4 * j + 2) = b2) (h3 : packedByte p (4 * j + 3) = b3) :
    packWord p j = b3 ++ b2 ++ b1 ++ b0 := by
  rw [packWord, h0, h1, h2, h3]

/-- Settles O48: each word's four elements, the low byte first. -/
theorem packedWords : Obligations.PackedWords := by
  unfold Obligations.PackedWords
  intro p
  have low (k : Coef) : packedByte p (3 * k.index) = (p.get k).low := packedByte_of_coef p k (i := 0) (by decide)
  have mid (k : Coef) : packedByte p (3 * k.index + 1) = (p.get k).mid := packedByte_of_coef p k (by decide)
  have high (k : Coef) : packedByte p (3 * k.index + 2) = (p.get k).high := packedByte_of_coef p k (by decide)
  exact ⟨packWord_of_bytes (low .a0) (mid .a0) (high .a0) (low .a1),
    packWord_of_bytes (mid .a1) (high .a1) (low .a2) (mid .a2),
    packWord_of_bytes (high .a2) (low .b0) (mid .b0) (high .b0),
    packWord_of_bytes (low .b1) (mid .b1) (high .b1) (low .b2),
    packWord_of_bytes (mid .b2) (high .b2)
      (packedByte_of_ge p (by decide)) (packedByte_of_ge p (by decide))⟩

end Sys2Proof.Machine
end

section
/-! PROOFS. The derivation against its listing, and the sign flip (spec 40_derivation.md rules R81 to R107). -/

namespace Sys2Proof.Machine

open Sys2Proof.Config (Params)

/-! ### The codes of `CTRL` and what they select -/

/-- The integer codes that select a filter type (R61, R72). -/
def FilterType.hasCode : FilterType → Nat → Prop
  | .lowPass, k => k = 0
  | .highPass, k => k = 1
  | .bandPassPeakQ, k => k = 2
  | .bandPassZeroDb, k => k = 3
  | .notch, k => k = 4
  | .allPass, k => k = 5
  | .peaking, k => 5 < k ∧ k ≠ 7 ∧ k ≠ 8
  | .lowShelf, k => k = 7
  | .highShelf, k => k = 8

/-- The integer codes that select an option (R62, R73). -/
def QOption.hasCode : QOption → Nat → Prop
  | .q, k => k = 0
  | .shelfSlope, k => k = 2
  | .bandwidth, k => k ≠ 0 ∧ k ≠ 2

theorem filterType_hasCode (c : BitVec 4) : (filterType c).hasCode c.toNat := by
  rcases c with ⟨⟨k, hk⟩⟩
  interval_cases k <;> simp [filterType, FilterType.hasCode]

theorem qOption_hasCode (c : BitVec 2) : (qOption c).hasCode c.toNat := by
  rcases c with ⟨⟨k, hk⟩⟩
  interval_cases k <;> simp [qOption, QOption.hasCode]

/-! ### The stages of the listing -/

section stages
variable (P : Params) (n : Nat → Binary64)

/-- The amplitude factor as R107 lists it. -/
theorem amplitude_eq_listing {ty : FilterType} {k : Nat} (h : ty.hasCode k) (g : Binary64) :
    amplitude P n ty g = if k ≤ 5 then P.pow F64.ten (fdiv (n 8200) g F64.twenty)
      else P.pow F64.ten (fdiv (n 8201) g F64.forty) := by
  cases ty with
  | peaking =>
    obtain ⟨h5, -, -⟩ := h
    rw [if_neg (Nat.not_le.mpr h5)]
    rfl
  | _ => subst h; rfl

/-- Alpha as R107 lists it, through the three forms of R84 to R86. -/
theorem alphaOf_eq_listing {o : QOption} {k : Nat} (h : o.hasCode k) (sw w0 A qv : Binary64) :
    alphaOf P n o sw w0 A qv = if k = 0 then alphaQ n sw qv
      else if k = 2 then alphaShelfSlope n sw A qv else alphaBandwidth P n sw w0 qv := by
  cases o with
  | bandwidth =>
    obtain ⟨h0, h2⟩ := h
    rw [if_neg h0, if_neg h2]
    rfl
  | _ => subst h; rfl

/-- The two forms of the HighShelf `a2` as R107 lists them (R99). -/
theorem highShelfA2_eq_listing (cw t Ap Am : Binary64) :
    highShelfA2 P n cw t Ap Am = if P.hsA2 = .omits then fsub (n 9901) Ap (fmul (n 9900) Am cw)
      else fsub (n 9904) (fsub (n 9903) Ap (fmul (n 9902) Am cw)) t := by
  cases h : P.hsA2 <;> simp [highShelfA2, h]

/-- The raw terms as R107 lists them (R87 to R99). -/
theorem rawCoefficients_toList {ty : FilterType} {k : Nat} (h : ty.hasCode k) (sw cw A alpha : Binary64) :
    (rawCoefficients P n ty sw cw A alpha).toList =
      if k ≤ 5 then listingPlain n k sw cw alpha
      else if k = 7 ∨ k = 8 then listingShelf P n k cw A alpha
      else listingPeaking n cw A alpha := by
  cases ty with
  | peaking =>
    obtain ⟨h5, h7, h8⟩ := h
    rw [if_neg (Nat.not_le.mpr h5), if_neg (not_or.mpr ⟨h7, h8⟩)]
    rfl
  | highShelf =>
    subst h
    simp only [rawCoefficients, highShelf, highShelfA2_eq_listing]
    rfl
  | _ => subst h; rfl

/-- The sign flip and the normalization as R107 lists them (R100, R102). -/
theorem listingFinish_toList (norm : Bool) (c : Six Binary64) :
    listingFinish n norm c.toList = (if norm then divideByA0 n (signFlip c) else signFlip c).toList := by
  cases norm <;> rfl

end stages

/-- Without normalization the derivation ends at R101. -/
theorem derive_of_not_norm (P : Params) (n : Nat → Binary64) {S : Snapshot} (h : S.ctrl.norm = false) :
    derive P n S = unnormalized P n S := by
  simp [derive, h]

/-- The derivation is the listing's last stage on the raw coefficients: the quirk stage passes them through (R101). -/
theorem derive_toList (P : Params) (n : Nat → Binary64) (S : Snapshot) {w0 A : Binary64}
    (hw0 : w0 = angularFrequency P n S.freq S.srate) (hA : A = amplitude P n (filterType S.ctrl.ftype) S.gain) :
    (derive P n S).toList = listingFinish n S.ctrl.norm
      (rawCoefficients P n (filterType S.ctrl.ftype) (P.sin w0) (P.cos w0) A
        (alphaOf P n (qOption S.ctrl.qopt) (P.sin w0) w0 A S.qval)).toList := by
  subst hw0 hA
  rw [listingFinish_toList, derive]
  rfl

/-- Settles O30: stage by stage, each with the code that selects its form. -/
theorem deriveIsTheListing : Obligations.DeriveIsTheListing := by
  unfold Obligations.DeriveIsTheListing
  intro P n S
  have hty := filterType_hasCode S.ctrl.ftype
  have hopt := qOption_hasCode S.ctrl.qopt
  rw [derive_toList P n S rfl rfl, rawCoefficients_toList P n hty, alphaOf_eq_listing P n hopt,
    amplitude_eq_listing P n hty]
  rfl

/-! ### Negation of an encoding -/

theorem F64.neg_eq_xor_twoPow (x : Binary64) : F64.neg x = x ^^^ BitVec.twoPow 64 63 := rfl

@[simp] theorem F64.sign_neg (x : Binary64) : F64.sign (F64.neg x) = !F64.sign x := by
  simp [F64.sign, F64.neg_eq_xor_twoPow]

/-- Negation changes no bit but the sign bit. -/
theorem F64.getLsbD_neg_of_ne (x : Binary64) {i : Nat} (h : i ≠ 63) : (F64.neg x).getLsbD i = x.getLsbD i := by
  simp [F64.neg_eq_xor_twoPow, BitVec.getLsbD_twoPow, h.symm]

/-- A field below the sign bit is kept. -/
theorem F64.extractLsb'_neg (x : Binary64) {start len : Nat} (h : start + len ≤ 63) :
    (F64.neg x).extractLsb' start len = x.extractLsb' start len := by
  ext i hi
  simpa using F64.getLsbD_neg_of_ne x (i := start + i) (by omega)

@[simp] theorem F64.expo_neg (x : Binary64) : F64.expo (F64.neg x) = F64.expo x := by
  rw [F64.expo, F64.expo, F64.extractLsb'_neg x (by decide)]

@[simp] theorem F64.frac_neg (x : Binary64) : F64.frac (F64.neg x) = F64.frac x := by
  rw [F64.frac, F64.frac, F64.extractLsb'_neg x (by decide)]

@[simp] theorem F64.mag_neg (x : Binary64) : F64.mag (F64.neg x) = F64.mag x := by
  simp only [F64.mag, F64.expo_neg, F64.frac_neg]

@[simp] theorem F64.units_neg (x : Binary64) : F64.units (F64.neg x) = -F64.units x := by
  cases h : F64.sign x <;> simp [F64.units, h]

/-- Settles O32: without normalization the result is the sign flip of the raw coefficients, and
negation keeps the fields that the magnitude is made of. (`signFlip` is the model's own name.) -/
theorem signFlip_holds : Obligations.SignFlip := by
  unfold Obligations.SignFlip
  refine ⟨?_, fun x => ⟨F64.sign_neg x, fun i hi => F64.getLsbD_neg_of_ne x hi, F64.units_neg x⟩⟩
  rintro P n S hnorm w0 raw rfl rfl
  rw [derive_of_not_norm P n hnorm]
  exact ⟨rfl, rfl, rfl, rfl, rfl, rfl⟩

end Sys2Proof.Machine
end

section
/-! PROOFS. The fields of an encoding that an operation builds, rounding of an exact value, and the product of finite
values (spec 00_scope.md rule R15). -/

namespace Sys2Proof.Machine

/-! ### The fields of an encoding given by its parts -/

section ofParts
variable (neg : Bool) {bits : Nat}

theorem F64.ofParts_toNat (h : bits < 2 ^ 63) : (F64.ofParts neg bits).toNat = neg.toNat * 2 ^ 63 + bits := by
  rw [F64.ofParts, toNat_append_eq_add, BitVec.toNat_ofBool, BitVec.toNat_ofNat, Nat.mod_eq_of_lt h]

theorem F64.expo_ofParts (h : bits < 2 ^ 63) : F64.expo (F64.ofParts neg bits) = bits / 2 ^ 52 := by
  rw [F64.expo, BitVec.extractLsb'_toNat, F64.ofParts_toNat neg h, Nat.shiftRight_eq_div_pow]
  omega

theorem F64.frac_ofParts (h : bits < 2 ^ 63) : F64.frac (F64.ofParts neg bits) = bits % 2 ^ 52 := by
  rw [F64.frac, BitVec.extractLsb'_toNat, F64.ofParts_toNat neg h, Nat.shiftRight_eq_div_pow]
  omega

@[simp] theorem F64.sign_ofParts (bits : Nat) : F64.sign (F64.ofParts neg bits) = neg := by
  have h := BitVec.getLsbD_append (x := BitVec.ofBool neg) (y := BitVec.ofNat 63 bits) (i := 63)
  rw [F64.sign, F64.ofParts]
  simpa only [lt_self_iff_false, if_false, Nat.sub_self, BitVec.getLsbD_ofBool, decide_true, Bool.true_and] using h

@[simp] theorem F64.sign_round (n d : Nat) : F64.sign (F64.round neg n d) = neg := F64.sign_ofParts neg _

/-- An encoding up to an infinity's is no NaN. -/
theorem F64.isNaN_ofParts_eq_false (h : bits ≤ F64.infBits) : F64.isNaN (F64.ofParts neg bits) = false := by
  rw [F64.infBits] at h
  simp only [F64.isNaN, F64.expo_ofParts neg (show bits < 2 ^ 63 by omega),
    F64.frac_ofParts neg (show bits < 2 ^ 63 by omega), Bool.and_eq_false_iff, beq_eq_false_iff_ne, bne_eq_false_iff_eq]
  omega

theorem F64.isFinite_ofParts_infBits_eq_false : F64.isFinite (F64.ofParts neg F64.infBits) = false := by
  rw [F64.isFinite, F64.expo_ofParts neg (by decide)]
  decide

/-- The encoding of `c * 2 ^ t` units: a significand below `2 ^ 53`, which fills its 53 bits unless the quantum is one
unit. -/
theorem F64.mag_ofParts {c t : Nat} (hc : c < 2 ^ 53) (hfull : t = 0 ∨ 2 ^ 52 ≤ c) (ht : t ≤ 2045) :
    F64.mag (F64.ofParts neg (t * 2 ^ 52 + c)) = c * 2 ^ t := by
  rw [F64.mag, F64.expo_ofParts neg (by omega), F64.frac_ofParts neg (by omega)]
  by_cases hsub : c < 2 ^ 52
  · obtain rfl : t = 0 := by omega
    rw [if_pos (by omega)]
    omega
  · have hexpo : (t * 2 ^ 52 + c) / 2 ^ 52 = t + 1 := by omega
    have hsig : (t * 2 ^ 52 + c) % 2 ^ 52 + 2 ^ 52 = c := by omega
    rw [hexpo, hsig, if_neg (Nat.succ_ne_zero t), Nat.add_sub_cancel]

theorem F64.isFinite_ofParts (h : bits < F64.infBits) : F64.isFinite (F64.ofParts neg bits) = true := by
  rw [F64.infBits] at h
  rw [F64.isFinite, F64.expo_ofParts neg (by omega), bne_iff_ne]
  omega

end ofParts

/-! ### The classes of values -/

/-- The classes exclude each other and leave nothing out. -/
theorem F64.isFinite_eq_false_iff (x : Binary64) :
    F64.isFinite x = false ↔ F64.isNaN x = true ∨ F64.isInf x = true := by
  cases h : F64.frac x == 0 <;> simp [F64.isFinite, F64.isNaN, F64.isInf, h, bne]

theorem F64.isNaN_eq_false_of_isFinite {x : Binary64} (h : F64.isFinite x = true) : F64.isNaN x = false := by
  rw [F64.isFinite, bne_iff_ne] at h
  simp [F64.isNaN, h]

theorem F64.isInf_eq_false_of_isFinite {x : Binary64} (h : F64.isFinite x = true) : F64.isInf x = false := by
  rw [F64.isFinite, bne_iff_ne] at h
  simp [F64.isInf, h]

theorem F64.isNaN_eq_false_of_isInf {x : Binary64} (h : F64.isInf x = true) : F64.isNaN x = false := by
  simp only [F64.isInf, Bool.and_eq_true, beq_iff_eq] at h
  simp [F64.isNaN, h]

theorem F64.isZero_eq_false_of_isInf {x : Binary64} (h : F64.isInf x = true) : F64.isZero x = false := by
  simp only [F64.isInf, Bool.and_eq_true, beq_iff_eq] at h
  simp [F64.isZero, h]

/-- A value that is no NaN is finite or infinite. -/
theorem F64.isFinite_eq_not_isInf {x : Binary64} (h : F64.isNaN x = false) : F64.isFinite x = !F64.isInf x := by
  cases hf : F64.isFinite x
  · obtain hn | hi := (F64.isFinite_eq_false_iff x).mp hf
    · simp [hn] at h
    · rw [hi]; rfl
  · rw [F64.isInf_eq_false_of_isFinite hf]; rfl

/-- The magnitude of a value is a significand of at most 53 bits times a power of two. -/
theorem F64.mag_eq_significand (x : Binary64) : ∃ c e, c < 2 ^ 53 ∧ F64.mag x = c * 2 ^ e := by
  have hfrac : F64.frac x < 2 ^ 52 := (x.extractLsb' 0 52).isLt
  rw [F64.mag]
  split
  · exact ⟨F64.frac x, 0, by omega, by simp⟩
  · exact ⟨F64.frac x + 2 ^ 52, F64.expo x - 1, by omega, rfl⟩

theorem F64.natAbs_units (x : Binary64) : (F64.units x).natAbs = F64.mag x := by
  cases h : F64.sign x <;> simp [F64.units, h]

/-! ### Rounding -/

theorem roundNearestEven_of_dvd {n d : Nat} (hd : 0 < d) (h : d ∣ n) : roundNearestEven n d = n / d := by
  rw [roundNearestEven, Nat.mod_eq_zero_of_dvd h, if_neg (by omega)]

theorem div_le_roundNearestEven (n d : Nat) : n / d ≤ roundNearestEven n d := by
  rcases roundNearestEven_cases n d with h | h <;> omega

/-- The significand that a quantum of `2 ^ (log2 k - 52)` leaves has at most 53 bits. -/
theorem significand_lt (k : Nat) : k / 2 ^ (Nat.log2 k - 52) < 2 ^ 53 := by
  rw [Nat.div_lt_iff_lt_mul (Nat.two_pow_pos _), ← pow_add]
  exact Nat.lt_of_lt_of_le Nat.lt_log2_self (Nat.pow_le_pow_right (by decide) (by omega))

/-- The significand has all 53 bits when `k` has as many. -/
theorem le_significand {k : Nat} (h : 52 ≤ Nat.log2 k) : 2 ^ 52 ≤ k / 2 ^ (Nat.log2 k - 52) := by
  have hk : k ≠ 0 := by
    rintro rfl
    exact absurd h (by decide)
  rw [Nat.le_div_iff_mul_le (Nat.two_pow_pos _), ← pow_add, Nat.add_sub_cancel' h]
  exact Nat.log2_self_le hk

theorem log2_mul_two_pow_lt {k a : Nat} (b : Nat) (ha : 0 < a) (h : k < 2 ^ a) : Nat.log2 (k * 2 ^ b) < a + b := by
  rw [Nat.log2_eq_log_two]
  refine Nat.log_lt_of_lt_pow' (by omega) ?_
  rw [pow_add]
  exact Nat.mul_lt_mul_of_pos_right h (Nat.two_pow_pos b)

theorem le_log2_mul_two_pow {k a : Nat} (b : Nat) (h : 2 ^ a ≤ k) : a + b ≤ Nat.log2 (k * 2 ^ b) := by
  have hpos : 0 < k * 2 ^ b := Nat.mul_pos (Nat.lt_of_lt_of_le (Nat.two_pow_pos a) h) (Nat.two_pow_pos b)
  rw [Nat.le_log2 hpos.ne', pow_add]
  exact Nat.mul_le_mul_right _ h

/-- A significand of at most 53 bits at any power of two is a whole number of its quanta. -/
theorem quantum_dvd {c : Nat} (e : Nat) (hc : c < 2 ^ 53) : 2 ^ (Nat.log2 (c * 2 ^ e) - 52) ∣ c * 2 ^ e := by
  have hlog := log2_mul_two_pow_lt e (by decide) hc
  exact Dvd.dvd.mul_left (pow_dvd_pow 2 (by omega)) c

/-- A whole number of quanta is rounded to itself, up to an infinity. -/
theorem F64.roundBits_of_dvd {k d : Nat} (hd : 0 < d) (hdvd : 2 ^ (Nat.log2 k - 52) ∣ k) :
    F64.roundBits (k * d) d = min ((Nat.log2 k - 52) * 2 ^ 52 + k / 2 ^ (Nat.log2 k - 52)) F64.infBits := by
  have hround : roundNearestEven (k * d) (d * 2 ^ (Nat.log2 k - 52)) = k / 2 ^ (Nat.log2 k - 52) := by
    rw [mul_comm k d, roundNearestEven_of_dvd (Nat.mul_pos hd (Nat.two_pow_pos _)) (Nat.mul_dvd_mul_left d hdvd),
      Nat.mul_div_mul_left _ _ hd]
  rw [F64.roundBits, Nat.mul_div_cancel _ hd, hround]

/-- A magnitude of at least `2 ^ 2098` units, which is `2 ^ 1024`, rounds to an infinity. -/
theorem F64.roundBits_of_log2_ge {n d : Nat} (h : 2098 ≤ Nat.log2 (n / d)) : F64.roundBits n d = F64.infBits := by
  have hsig := le_significand (k := n / d) (by omega)
  have hround := div_le_roundNearestEven n (d * 2 ^ (Nat.log2 (n / d) - 52))
  rw [← Nat.div_div_eq_div_mul] at hround
  rw [F64.roundBits, F64.infBits]
  exact Nat.min_eq_right (by omega)

/-- A whole number of quanta below `2 ^ 1024` is a finite value of just that magnitude. -/
theorem F64.round_of_dvd (neg : Bool) {k d : Nat} (hd : 0 < d) (hdvd : 2 ^ (Nat.log2 k - 52) ∣ k)
    (hlog : Nat.log2 k < 2098) :
    F64.isFinite (F64.round neg (k * d) d) = true ∧ F64.mag (F64.round neg (k * d) d) = k := by
  have hlt := significand_lt k
  have hfull : Nat.log2 k - 52 = 0 ∨ 2 ^ 52 ≤ k / 2 ^ (Nat.log2 k - 52) := by
    rcases Nat.lt_or_ge (Nat.log2 k) 52 with h | h
    · exact .inl (by omega)
    · exact .inr (le_significand h)
  have hbits : (Nat.log2 k - 52) * 2 ^ 52 + k / 2 ^ (Nat.log2 k - 52) < F64.infBits := by
    rw [F64.infBits]
    omega
  rw [F64.round, F64.roundBits_of_dvd hd hdvd, Nat.min_eq_left hbits.le]
  refine ⟨F64.isFinite_ofParts neg hbits, ?_⟩
  rw [F64.mag_ofParts neg hlt hfull (by omega), Nat.div_mul_cancel hdvd]

/-! ### The product -/

theorem F64.mul_of_finite {x y : Binary64} (hx : F64.isFinite x = true) (hy : F64.isFinite y = true) :
    F64.mul x y = some (F64.round (F64.sign x != F64.sign y) (F64.mag x * F64.mag y) (2 ^ 1074)) := by
  simp only [F64.mul, F64.isNaN_eq_false_of_isFinite, F64.isInf_eq_false_of_isFinite, hx, hy, Bool.or_self,
    Bool.false_eq_true, if_false]

/-- A product that is no NaN is not encoded as one. -/
theorem F64.isNaN_eq_false_of_mul {x y v : Binary64} (h : F64.mul x y = some v) : F64.isNaN v = false := by
  unfold F64.mul at h
  split at h
  · cases h
  · split at h
    · split at h
      · cases h
      · cases h
        exact F64.isNaN_ofParts_eq_false _ le_rfl
    · cases h
      exact F64.isNaN_ofParts_eq_false _ (F64.roundBits_le _ _)

end Sys2Proof.Machine
end

section
/-! PROOFS. The mask and the three bytes of a coefficient (spec 41_quantize_pack.md rules R124 to R130). -/

namespace Sys2Proof.Machine

open Sys2Proof.Config (Params)

/-! ### The mask -/

theorem inInt32_eq_true_iff {k : Int} : inInt32 k = true ↔ -(2 ^ 31) ≤ k ∧ k ≤ 2 ^ 31 - 1 := by
  simp [inInt32]

theorem inInt32_eq_false_iff {k : Int} : inInt32 k = false ↔ k < -(2 ^ 31) ∨ 2 ^ 31 - 1 < k := by
  rw [← Bool.not_eq_true, inInt32_eq_true_iff]
  omega

/-- Inside the signed 32-bit range, and everywhere when `P_QWIDE` is `WRAP`, the mask is a reduction (R125). -/
theorem maskInteger_of_masked {P : Params} {k : Int} (h : inInt32 k = true ∨ P.qWide = .wrap) :
    maskInteger P k = BitVec.ofInt 24 k := by
  rcases h with h | h <;> simp [maskInteger, h]

/-- Outside the range with `P_QWIDE` = `ZERO` the word is zero (R124). -/
theorem maskInteger_of_zeroed {P : Params} {k : Int} (hk : inInt32 k = false) (h : P.qWide = .zero) :
    maskInteger P k = 0#24 := by
  simp [maskInteger, hk, h]

theorem toNat_ofInt_twentyFour (k : Int) : ((BitVec.ofInt 24 k).toNat : Int) = k % 2 ^ 24 := by
  rw [BitVec.toNat_ofInt]
  omega

/-- Settles O45: the mask is a reduction modulo `2^24`, but for the wide integers that `P_QWIDE` zeroes. -/
theorem wideAndMasked : Obligations.WideAndMasked := by
  unfold Obligations.WideAndMasked
  intro P k
  refine ⟨fun hlow hhigh => ?_, fun hwide => ⟨fun hwrap => ?_, fun hzero => ?_⟩⟩
  · rw [maskInteger_of_masked (.inl (inInt32_eq_true_iff.mpr ⟨hlow, hhigh⟩)), toNat_ofInt_twentyFour]
  · rw [maskInteger_of_masked (.inr hwrap), toNat_ofInt_twentyFour]
  · exact maskInteger_of_zeroed (inInt32_eq_false_iff.mpr hwide) hzero

/-! ### The three bytes of a coefficient -/

/-- `Quantize6` is `Quantize` of each element (R126). -/
@[simp] theorem quantize6_get (P : Params) (c : Six Binary64) (k : Coef) :
    (quantize6 P c).get k = quantize P (c.get k) :=
  Six.get_map _ c k

/-- The packed bytes of a coefficient are those of its quantized word (R128). -/
theorem packedByte_packBytes (P : Params) (c : Six Binary64) (k : Coef) {i : Nat} (hi : i < 3) :
    packedByte (packBytes P c) (3 * k.index + i) = (tripleOf (quantize P (c.get k))).byte i := by
  rw [packedByte_of_coef _ k hi, packBytes, Six.get_map, quantize6_get]

/-- Byte `i` of a word is its bits `[8i+7:8i]`. -/
theorem tripleOf_byte (q : Q24) {i : Nat} (hi : i < 3) : (tripleOf q).byte i = q.extractLsb' (8 * i) 8 := by
  interval_cases i <;> rfl

theorem tripleOf_byte_toNat (q : Q24) {i : Nat} (hi : i < 3) :
    ((tripleOf q).byte i).toNat = q.toNat / 2 ^ (8 * i) % 256 := by
  rw [tripleOf_byte q hi, BitVec.extractLsb'_toNat, Nat.shiftRight_eq_div_pow]

/-- The three bytes of a word, each put at its place, are the word. -/
theorem tripleOf_bytes_join (q : Q24) :
    ((tripleOf q).byte 0).setWidth 24 ||| (((tripleOf q).byte 1).setWidth 24 <<< 8)
      ||| (((tripleOf q).byte 2).setWidth 24 <<< 16) = q := by
  ext i hi
  simp only [tripleOf_byte, BitVec.getElem_or, BitVec.getElem_shiftLeft, BitVec.getElem_setWidth,
    BitVec.getLsbD_extractLsb', Nat.reduceMul, Nat.reduceLT]
  obtain h | h | h : i < 8 ∨ (8 ≤ i ∧ i < 16) ∨ 16 ≤ i := by omega
  · simp [h, hi, show i < 16 by omega, BitVec.getLsbD_eq_getElem]
  · simp [h, hi, show ¬ i < 8 by omega, show i - 8 < 8 by omega, show 8 + (i - 8) = i by omega,
      BitVec.getLsbD_eq_getElem]
  · simp [hi, show ¬ i < 8 by omega, show ¬ i - 8 < 8 by omega, show ¬ i < 16 by omega, show i - 16 < 8 by omega,
      show 16 + (i - 16) = i by omega, BitVec.getLsbD_eq_getElem]

/-- Settles O47: the bytes of the word, joined. -/
theorem byteDecomposition : Obligations.ByteDecomposition := by
  unfold Obligations.ByteDecomposition
  intro P c k
  have low := packedByte_packBytes P c k (i := 0) (by decide)
  rw [Nat.add_zero] at low
  rw [low, packedByte_packBytes P c k (by decide), packedByte_packBytes P c k (by decide), quantize6_get,
    tripleOf_bytes_join]

end Sys2Proof.Machine
end

section
/-! PROOFS. The quantizer (spec 41_quantize_pack.md rules R120 to R132). -/

namespace Sys2Proof.Machine

open Sys2Proof.Config (Params)

/-! ### Scaling by `2^22` -/

theorem F64.sign_scale : F64.sign F64.scale = false := by decide

theorem F64.isFinite_scale : F64.isFinite F64.scale = true := by decide

theorem F64.mag_scale : F64.mag F64.scale = 2 ^ 22 * 2 ^ 1074 := by
  have hexpo : F64.expo F64.scale = 1045 := by decide
  have hfrac : F64.frac F64.scale = 0 := by decide
  rw [F64.mag, hexpo, hfrac, if_neg (by decide), Nat.zero_add, ← pow_add, ← pow_add]

/-- The scaled value of a finite one is its exact `2^22`-fold, rounded (R121). -/
theorem F64.mul_scale_of_finite {x : Binary64} (hx : F64.isFinite x = true) :
    F64.mul x F64.scale = some (F64.round (F64.sign x) (F64.mag x * 2 ^ 22 * 2 ^ 1074) (2 ^ 1074)) := by
  rw [F64.mul_of_finite hx F64.isFinite_scale, F64.sign_scale, F64.mag_scale, Bool.bne_false, Nat.mul_assoc]

/-- An infinity stays one (R121). -/
theorem F64.mul_scale_of_inf {x : Binary64} (hx : F64.isInf x = true) :
    F64.mul x F64.scale = some (F64.ofParts (F64.sign x) F64.infBits) := by
  have hzero : (F64.isZero x || F64.isZero F64.scale) = false := by
    rw [F64.isZero_eq_false_of_isInf hx]
    decide
  simp only [F64.mul, F64.isNaN_eq_false_of_isInf hx, F64.isNaN_eq_false_of_isFinite F64.isFinite_scale, hx, hzero,
    F64.sign_scale, Bool.or_self, Bool.true_or, Bool.bne_false, Bool.false_eq_true, if_true, if_false]

/-- Below `2^1002` the scaled value is exact (R121). -/
theorem F64.mul_scale_exact {x : Binary64} (hx : F64.isFinite x = true) (hlt : F64.mag x < 2 ^ 2076) :
    ∃ v, F64.mul x F64.scale = some v ∧ F64.isFinite v = true ∧ F64.sign v = F64.sign x ∧
      F64.units v = F64.units x * 2 ^ 22 := by
  have hdvd : 2 ^ (Nat.log2 (F64.mag x * 2 ^ 22) - 52) ∣ F64.mag x * 2 ^ 22 := by
    obtain ⟨c, e, hc, hmag⟩ := F64.mag_eq_significand x
    rw [hmag, Nat.mul_assoc, ← pow_add]
    exact quantum_dvd (e + 22) hc
  have hlog : Nat.log2 (F64.mag x * 2 ^ 22) < 2098 := log2_mul_two_pow_lt 22 (by decide) hlt
  have hd : 0 < 2 ^ 1074 := pow_pos two_pos 1074
  obtain ⟨hfin, hmag⟩ := F64.round_of_dvd (F64.sign x) hd hdvd hlog
  refine ⟨_, F64.mul_scale_of_finite hx, hfin, F64.sign_round _ _ _, ?_⟩
  rw [F64.units, F64.units, F64.sign_round, hmag]
  cases F64.sign x <;> simp

/-- From `2^1002` on the scaled value overflows (R121). -/
theorem F64.mul_scale_of_mag_ge {x : Binary64} (hx : F64.isFinite x = true) (hge : 2 ^ 2076 ≤ F64.mag x) :
    F64.mul x F64.scale = some (F64.ofParts (F64.sign x) F64.infBits) := by
  have hlog : 2098 ≤ Nat.log2 (F64.mag x * 2 ^ 22 * 2 ^ 1074 / 2 ^ 1074) := by
    rw [Nat.mul_div_cancel _ (Nat.two_pow_pos 1074)]
    exact le_log2_mul_two_pow 22 hge
  rw [F64.mul_scale_of_finite hx, F64.round, F64.roundBits_of_log2_ge hlog]

/-! ### The cases of `Quantize` -/

section quantize
variable (P : Params) {x : Binary64}

theorem quantize_of_mul_none (h : F64.mul x F64.scale = none) : quantize P x = P.qNonfinite := by
  rw [quantize, h]

theorem quantize_of_mul_finite {v : Binary64} (h : F64.mul x F64.scale = some v) (hv : F64.isFinite v = true) :
    quantize P x = maskInteger P (F64.floor v) := by
  simp only [quantize, h, hv, if_true]

theorem quantize_of_mul_not_finite {v : Binary64} (h : F64.mul x F64.scale = some v) (hv : F64.isFinite v = false) :
    quantize P x = P.qNonfinite := by
  simp only [quantize, h, hv, Bool.false_eq_true, if_false]

/-- Below `2^1002` the quantizer masks the floor of the exact product (R121, R122). -/
theorem quantize_of_mag_lt (hx : F64.isFinite x = true) (hlt : F64.mag x < 2 ^ 2076) :
    quantize P x = maskInteger P (F64.units x * 2 ^ 22 / 2 ^ 1074) := by
  obtain ⟨v, hmul, hfin, -, hunits⟩ := F64.mul_scale_exact hx hlt
  rw [quantize_of_mul_finite P hmul hfin, F64.floor, hunits]

end quantize

/-- Settles O44: the scaled value is a NaN or an infinity. -/
theorem nonfiniteValues : Obligations.NonfiniteValues := by
  unfold Obligations.NonfiniteValues
  refine ⟨fun P x h => ?_, rfl⟩
  have overflow (hmul : F64.mul x F64.scale = some (F64.ofParts (F64.sign x) F64.infBits)) :
      quantize P x = P.qNonfinite :=
    quantize_of_mul_not_finite P hmul (F64.isFinite_ofParts_infBits_eq_false _)
  rcases h with hnan | hinf | ⟨hfin, hge⟩
  · exact quantize_of_mul_none P (F64.mul_nan_left hnan F64.scale)
  · exact overflow (F64.mul_scale_of_inf hinf)
  · exact overflow (F64.mul_scale_of_mag_ge hfin hge)

/-! ### The signed reading -/

/-- The mask of a signed 24-bit integer reads back as the integer (R127). -/
theorem maskInteger_toInt (P : Params) {k : Int} (hlow : -(2 ^ 23) ≤ k) (hhigh : k ≤ 2 ^ 23 - 1) :
    (maskInteger P k).toInt = k := by
  rw [maskInteger_of_masked (.inl (inInt32_eq_true_iff.mpr (by omega)))]
  exact BitVec.toInt_ofInt_eq_self (by decide) hlow (by omega)

/-- The floor of the scaled value, in units, is a quotient by the weight of the last bit (R122). -/
theorem scaled_floor (u : Int) : u * 2 ^ 22 / 2 ^ 1074 = u / 2 ^ 1052 := by
  rw [show (2 : Int) ^ 1074 = 2 ^ 1052 * 2 ^ 22 from (pow_add 2 1052 22)]
  exact Int.mul_ediv_mul_of_pos_left u _ (by decide)

section range
variable {x : Binary64} (hlow : -(2 * 2 ^ 1074) ≤ F64.units x) (hhigh : F64.units x < 2 * 2 ^ 1074)
include hlow hhigh

/-- A value in `[-2, 2)` is far below the bound of exact scaling (R121). -/
theorem F64.mag_lt_of_units_range : F64.mag x < 2 ^ 2076 := by
  have hbound : (2 : Int) * 2 ^ 1074 < 2 ^ 2076 := by
    rw [← pow_succ']
    exact pow_lt_pow_right₀ (by decide) (by decide)
  rw [← F64.natAbs_units, ← Int.ofNat_lt, Int.natCast_natAbs, Nat.cast_pow]
  exact abs_lt.mpr ⟨(neg_lt_neg hbound).trans_le hlow, hhigh.trans hbound⟩

/-- The floor of a scaled value in `[-2, 2)` is a signed 24-bit integer (R127). -/
theorem F64.scaled_floor_range : -(2 ^ 23) ≤ F64.units x / 2 ^ 1052 ∧ F64.units x / 2 ^ 1052 ≤ 2 ^ 23 - 1 := by
  have hweight : (0 : Int) < 2 ^ 1052 := pow_pos (by decide) 1052
  have hend : (2 : Int) * 2 ^ 1074 = 2 ^ 23 * 2 ^ 1052 := by rw [← pow_succ', ← pow_add]
  rw [hend] at hlow hhigh
  rw [Int.le_sub_one_iff, Int.le_ediv_iff_mul_le hweight, Int.ediv_lt_iff_lt_mul hweight, Int.neg_mul]
  exact ⟨hlow, hhigh⟩

end range

/-- Settles O46: the floor is in the signed 24-bit range, so the mask keeps it, and the error is the remainder of
the floor. -/
theorem signedReading : Obligations.SignedReading := by
  unfold Obligations.SignedReading
  intro P x hfin hlow hhigh
  obtain ⟨hfloor_low, hfloor_high⟩ := F64.scaled_floor_range hlow hhigh
  have hread : (quantize P x).toInt = F64.units x / 2 ^ 1052 := by
    rw [quantize_of_mag_lt P hfin (F64.mag_lt_of_units_range hlow hhigh), scaled_floor,
      maskInteger_toInt P hfloor_low hfloor_high]
  have herror : F64.units x - F64.units x / 2 ^ 1052 * 2 ^ 1052 = F64.units x % 2 ^ 1052 := by
    rw [Int.emod_def, Int.mul_comm]
  have hweight : (0 : Int) < 2 ^ 1052 := pow_pos (by decide) 1052
  rw [scaled_floor, hread, herror]
  exact ⟨rfl, hfloor_low, hfloor_high, Int.emod_nonneg _ hweight.ne', Int.emod_lt_of_pos _ hweight⟩

/-! ### The listing -/

theorem maskInteger_toNat_eq_listing (P : Params) (k : Int) :
    (maskInteger P k).toNat =
      if (k < -2147483648 ∨ k > 2147483647) ∧ P.qWide = .zero then 0 else (k % 16777216).toNat := by
  split
  · next h =>
    obtain ⟨hout, hzero⟩ := h
    rw [maskInteger_of_zeroed (inInt32_eq_false_iff.mpr (by omega)) hzero]
    rfl
  · next h =>
    rw [maskInteger_of_masked, BitVec.toNat_ofInt]
    · rfl
    · cases hw : P.qWide with
      | wrap => exact .inr rfl
      | zero =>
        refine .inl (inInt32_eq_true_iff.mpr ?_)
        simp only [hw, and_true] at h
        omega

theorem quantize_toNat_eq_listing (P : Params) (x : Binary64) : (quantize P x).toNat = quantizeListing P x := by
  cases hmul : F64.mul x F64.scale with
  | none => rw [quantize_of_mul_none P hmul, quantizeListing, hmul]
  | some v =>
    have hclass := F64.isFinite_eq_not_isInf (F64.isNaN_eq_false_of_mul hmul)
    cases hinf : F64.isInf v with
    | true =>
      rw [hinf] at hclass
      simp only [quantizeListing, hmul, hinf, if_true, quantize_of_mul_not_finite P hmul hclass]
    | false =>
      rw [hinf] at hclass
      rw [quantize_of_mul_finite P hmul hclass]
      simp only [quantizeListing, hmul, hinf, Bool.false_eq_true, if_false]
      exact maskInteger_toNat_eq_listing P (F64.floor v)

/-- Settles O42: by the class of the scaled value, coefficient by coefficient, and byte by byte. -/
theorem quantizeIsTheListing : Obligations.QuantizeIsTheListing := by
  unfold Obligations.QuantizeIsTheListing
  refine ⟨quantize_toNat_eq_listing, quantize6_get, fun P c k => ?_⟩
  have bytes {i : Nat} (hi : i < 3) : (packedByte (packBytes P c) (3 * k.index + i)).toNat =
      (quantize P (c.get k)).toNat / 2 ^ (8 * i) % 256 := by
    rw [packedByte_packBytes P c k hi, tripleOf_byte_toNat _ hi]
  have hhigh : (quantize P (c.get k)).toNat / 65536 < 256 := by
    have hword := (quantize P (c.get k)).isLt
    omega
  refine ⟨?_, ?_, ?_⟩
  · simpa using bytes (i := 0) (by decide)
  · simpa using bytes (i := 1) (by decide)
  · rw [bytes (by decide)]
    exact Nat.mod_eq_of_lt hhigh

end Sys2Proof.Machine
end

section
/-! PROOFS. A command word presented to the block: accepted, rejected or ignored (spec 42_commands.md rules R140, R141,
R148). -/

namespace Sys2Proof.Machine

/-! ### The six valid commands as one -/

/-- What a command writes at completion (R142 to R147). -/
def Kind.effect : Kind → Snapshot → State → State
  | .runReal => effectRunReal
  | .runFixed => effectRunFixed
  | .runBytes => effectRunBytes
  | .convReal => effectConvReal
  | .convFixed => effectConvFixed
  | .convBytes => effectConvBytes

/-- A valid command is `command` with the writes of its kind. -/
theorem exec_instr (k : Kind) (s : State) : exec k.instr s = command k k.effect s := by cases k <;> rfl

/-- An idle block accepts every valid command (R140). -/
theorem exec_instr_idle {s : State} (h : s.pend = none) (k : Kind) : exec k.instr s = .next (accept k s) := by
  rw [exec_instr, command_idle h]

/-! ### The presentation -/

/-- An idle block has no completion due. -/
theorem State.not_engineDue_of_idle {s : State} (h : s.pend = none) : ¬ s.engineDue := by
  rintro ⟨p, hp, -⟩
  simp [h] at hp

/-- The host's write of `CMD` to an idle block runs the word it writes (R46). -/
theorem step_wr_cmd_idle {s : State} {v : Word} {rest : List HostOp} (h : s.pend = none)
    (hhost : s.host = wr .cmd v :: rest) : step s = exec (decode v) ((s.setHost rest).receive .written) :=
  (writeStores s .cmd v rest (State.not_engineDue_of_idle h) hhost).1 rfl (s.busy_eq_false_iff.mpr h)

/-- Settles O17: the step runs the word, and acceptance changes `PEND` and the status alone. -/
theorem acceptance : Obligations.Acceptance := by
  unfold Obligations.Acceptance
  intro s k v rest hidle hhost hdecode
  have hstep : step s = .next (accept k ((s.setHost rest).receive .written)) := by
    rw [step_wr_cmd_idle hidle hhost, hdecode, exec_instr_idle (by simpa using hidle)]
  refine ⟨_, _, hstep, accept_pend _ k, rfl, snapshot_eq _, rfl, rfl, rfl, ?_, ?_, rfl, rfl⟩
  · simp [sameInputs]
  · simp [sameResults]

/-- Settles O19: `CMD` is written while the block is busy, and a busy block ignores every write. -/
theorem commandWhileBusyIgnored : Obligations.CommandWhileBusyIgnored := by
  unfold Obligations.CommandWhileBusyIgnored
  intro s v rest hbusy hdue hhost
  obtain ⟨t, hstep, hrest, hpolicy, hseen, hsame, -⟩ := (writeStores s .cmd v rest hdue hhost).2 (.inr hbusy)
  exact ⟨t, hstep, hsame (.inr hbusy), hrest, hseen, hpolicy⟩

/-! ### Rejection -/

/-- An idle block rejects an invalid selector: the status alone changes (R148). -/
theorem exec_invalidSel_idle {s : State} (h : s.pend = none) (sel : BitVec 8) (conv : Bool) :
    exec (.invalidSel sel conv) s = .next s.statusRejected := by
  simp [reject, h]

theorem sameInputs_statusRejected (s : State) : sameInputs s s.statusRejected := by simp [sameInputs]

theorem sameResults_statusRejected (s : State) : sameResults s s.statusRejected := by simp [sameResults]

theorem sameHost_statusRejected (s : State) : sameHost s s.statusRejected := by simp [sameHost]

/-- Settles O20: such a word decodes to an invalid selector, which `exec` rejects. -/
theorem rejection : Obligations.Rejection := by
  unfold Obligations.Rejection
  constructor
  · intro s v rest hidle hhost hsel
    have hstep : step s = .next ((s.setHost rest).receive .written).statusRejected := by
      rw [step_wr_cmd_idle hidle hhost, decode_of_invalid_sel hsel, exec_invalidSel_idle (by simpa using hidle)]
    exact ⟨_, hstep, rfl, rfl, hidle, sameInputs_statusRejected _, sameResults_statusRejected _, rfl, rfl, rfl⟩
  · intro s sel conv hidle
    exact ⟨_, exec_invalidSel_idle hidle sel conv, rfl, rfl, hidle, sameInputs_statusRejected s,
      sameResults_statusRejected s, sameHost_statusRejected s⟩

end Sys2Proof.Machine
end

section
/-! PROOFS. What each valid command writes at completion (spec 42_commands.md rules R142 to R147, R149). -/

namespace Sys2Proof.Machine

/-! ### The completion of any kind -/

/-- When its completion is due, a command writes its result registers and finishes (R149). -/
theorem exec_instr_due {s : State} {k : Kind} {S : Snapshot} (h : s.pend = some ⟨k, S, 0⟩) :
    exec k.instr s = .next (finish (k.effect S s)) := by
  rw [exec_instr, command_due h]

/-! ### What the writes of a completion leave -/

section effect

variable (k : Kind) (S : Snapshot) (s : State)

@[simp] theorem Kind.effect_runReal : Kind.runReal.effect S s = writeDerived S s := rfl
@[simp] theorem Kind.effect_runFixed :
    Kind.runFixed.effect S s = writeQuantized (derivedOf S s) (writeDerived S s) := rfl
@[simp] theorem Kind.effect_runBytes :
    Kind.runBytes.effect S s =
      writePacked (derivedOf S s) (writeQuantized (derivedOf S s) (writeDerived S s)) := rfl
@[simp] theorem Kind.effect_convReal : Kind.convReal.effect S s = s := rfl
@[simp] theorem Kind.effect_convFixed : Kind.convFixed.effect S s = writeQuantized S.coefR s := rfl
@[simp] theorem Kind.effect_convBytes :
    Kind.convBytes.effect S s = writePacked S.coefR (writeQuantized S.coefR s) := rfl

@[simp] theorem Kind.effect_err : (k.effect S s).err = s.err := by cases k <;> simp

theorem Kind.sameInputs_effect : sameInputs s (k.effect S s) := by cases k <;> simp [sameInputs]

theorem Kind.sameHost_effect : sameHost s (k.effect S s) := by cases k <;> simp [sameHost]

/-- Besides the result registers, a completion changes `PEND` and `DONE` alone (R149). -/
theorem finish_effect_frame :
    (finish (k.effect S s)).pend = none ∧ (finish (k.effect S s)).done = true ∧
      (finish (k.effect S s)).err = s.err ∧ sameInputs s (finish (k.effect S s)) ∧
      sameHost s (finish (k.effect S s)) :=
  ⟨finish_pend _, finish_done _, Kind.effect_err k S s, Kind.sameInputs_effect k S s, Kind.sameHost_effect k S s⟩

end effect

/-! ### The values written -/

/-- The NaN patterns of a completion are quiet (R11). -/
theorem quietSupply_nanSupply (draw : Nat) : quietSupply (nanSupply draw) := fun _ => ⟨_, rfl⟩

/-- Bits 31:16 of `PACK[4]` are 0: its elements 18 and 19 are past the last coefficient (R71). -/
theorem packWord_four_lt (p : Six Triple) : (packWord p 4).toNat < 2 ^ 16 := by
  have hbyte18 : packedByte p (4 * 4 + 2) = 0#8 := packedByte_of_ge p (by decide)
  have hbyte19 : packedByte p (4 * 4 + 3) = 0#8 := packedByte_of_ge p (by decide)
  have hlow := (packedByte p (4 * 4)).isLt
  have hhigh := (packedByte p (4 * 4 + 1)).isLt
  rw [packWord_toNat, hbyte18, hbyte19, BitVec.toNat_zero]
  omega

/-! ### The six commands -/

/-- Settles O23: the derived coefficients, their quantized words and the packed bytes of these. -/
theorem runBytesCompletes : Obligations.RunBytesCompletes := by
  unfold Obligations.RunBytesCompletes
  refine ⟨rfl, rfl, fun s S h => ?_⟩
  refine ⟨nanSupply s.draws, _, quietSupply_nanSupply _, exec_instr_due h, rfl, ?_, fun _ => rfl, ?_,
    finish_effect_frame .runBytes S s⟩
  · exact quantize6_get Config.params (derivedOf S s)
  · exact packWord_four_lt _

/-- Settles O26: the quantized words and packed bytes of the snapshot's `COEF_R`. -/
theorem convBytesCompletes : Obligations.ConvBytesCompletes := by
  unfold Obligations.ConvBytesCompletes
  refine ⟨rfl, rfl, fun s S h => ?_⟩
  refine ⟨_, exec_instr_due h, ?_, fun _ => rfl, ?_, rfl, finish_effect_frame .convBytes S s⟩
  · exact quantize6_get Config.params S.coefR
  · exact packWord_four_lt _

/-- Settles O21: the derived coefficients alone. -/
theorem runRealCompletes : Obligations.RunRealCompletes := by
  unfold Obligations.RunRealCompletes
  refine ⟨rfl, rfl, fun s S h => ?_⟩
  exact ⟨nanSupply s.draws, _, quietSupply_nanSupply _, exec_instr_due h, rfl, rfl, rfl,
    finish_effect_frame .runReal S s⟩

/-- Settles O22: the derived coefficients and their quantized words. -/
theorem runFixedCompletes : Obligations.RunFixedCompletes := by
  unfold Obligations.RunFixedCompletes
  refine ⟨rfl, rfl, fun s S h => ?_⟩
  exact ⟨nanSupply s.draws, _, quietSupply_nanSupply _, exec_instr_due h, rfl,
    quantize6_get Config.params (derivedOf S s), rfl, finish_effect_frame .runFixed S s⟩

/-- Settles O24: no result register is written. -/
theorem convRealCompletes : Obligations.ConvRealCompletes := by
  unfold Obligations.ConvRealCompletes
  refine ⟨rfl, rfl, fun s S h => ?_⟩
  exact ⟨_, exec_instr_due h, ⟨rfl, rfl, rfl⟩, finish_effect_frame .convReal S s⟩

/-- Settles O25: the quantized words of the snapshot's `COEF_R`. -/
theorem convFixedCompletes : Obligations.ConvFixedCompletes := by
  unfold Obligations.ConvFixedCompletes
  refine ⟨rfl, rfl, fun s S h => ?_⟩
  exact ⟨_, exec_instr_due h, quantize6_get Config.params S.coefR, rfl, rfl, finish_effect_frame .convFixed S s⟩

end Sys2Proof.Machine
end

section
/-! PROOFS. What a step can do while a command is in flight (spec 70_reset_and_hazards.md rules R185 to R187). -/

namespace Sys2Proof.Machine

/-! ### The completion step -/

/-- When the completion is due, a step writes the results of the command in flight and finishes it (R149). -/
theorem step_due {s : State} {k : Kind} {S : Snapshot} (h : s.pend = some ⟨k, S, 0⟩) :
    step s = .next (finish (k.effect S s)) := by
  rw [← exec_instr_due h]
  simp [step, turn, h]

/-- A completion step keeps the input registers. -/
theorem sameInputs_of_step_due {s t : State} (hdue : s.engineDue) (hstep : step s = .next t) : sameInputs s t := by
  obtain ⟨⟨k, S, _⟩, hpend, rfl⟩ := hdue
  rw [step_due hpend] at hstep
  cases hstep
  obtain ⟨-, -, -, hinputs, -⟩ := finish_effect_frame k S s
  exact hinputs

/-! ### The host's lines while the block is busy -/

theorem sameBlock_setHost (s : State) (lines : List HostOp) : sameBlock s (s.setHost lines) := by
  simp [sameBlock, sameInputs, sameResults, State.inFlight]

/-- A poll reads `STATUS` and leaves the block as it is (R79). -/
theorem sameBlock_pollStatus (s : State) : sameBlock s (pollStatus s) := by
  obtain ⟨hread, -⟩ := readReg_effect .status s
  unfold pollStatus
  split
  · exact hread.trans (sameBlock_setHost _ _)
  · exact hread

/-- A bus error that does not stop the run leaves the block as it is (R162). -/
theorem sameBlock_of_busError {f : Fault} {s t : State} (h : busError f s = .next t) : sameBlock s t := by
  obtain ⟨-, hstop⟩ | ⟨-, hrecord⟩ := busError_cases f s
  · rw [hstop] at h
    cases h
  · rw [hrecord] at h
    cases h
    exact sameBlock_receive _ s

/-- No line of the host but reset reaches a busy block: reads and polls have no effect on it, and it ignores every
write (R46, R187). -/
theorem sameBlock_of_performLine_busy {run : Instr → State → Result} {op : HostOp} {s t : State}
    (hbusy : s.busy = true) (hop : op ≠ .reset) (h : performLine run op s = .next t) : sameBlock s t := by
  cases op with
  | read w off =>
    rw [performLine] at h
    split at h
    · exact sameBlock_of_busError h
    · next r _ =>
      cases h
      obtain ⟨hread, -⟩ := readReg_effect r s
      exact hread
  | write w off v =>
    rw [performLine] at h
    split at h
    · exact sameBlock_of_busError h
    · rw [writeReg_ignored (.inr (by simpa using hbusy))] at h
      cases h
      exact sameBlock_receive _ s
  | poll =>
    cases h
    exact sameBlock_pollStatus s
  | reset => exact absurd rfl hop

/-- Setting the host's lines to those it has changes nothing. -/
theorem State.setHost_eq_self {s : State} {lines : List HostOp} (h : s.host = lines) : s.setHost lines = s := by
  subst h
  rfl

/-- While no completion is due and the host waits, a step passes one of its turns (R51). -/
theorem step_of_host_nil {s : State} (hdue : ¬ s.engineDue) (hhost : s.host = []) :
    step s = .next (s.afterTake []) := by
  unfold step
  obtain ⟨hp, ht⟩ | ⟨p, hp, hturns, -⟩ | ⟨p, hp, -, ht⟩ := turn_cases exec s
  · simp [ht, hostTurn, hhost, s.afterTake_of_idle (s.busy_eq_false_iff.mpr hp), State.setHost_eq_self hhost]
  · exact absurd ⟨p, hp, hturns⟩ hdue
  · simp [ht, hostTurn, hhost, State.afterTake, hp, State.setHost_eq_self]

/-- A step of a busy block that is neither the completion nor reset changes nothing of the block. -/
theorem sameBlock_of_step_busy {s t : State} (hbusy : s.busy = true) (hdue : ¬ s.engineDue)
    (hreset : ∀ rest, s.host ≠ .reset :: rest) (hstep : step s = .next t) : sameBlock s t := by
  cases hhost : s.host with
  | nil =>
    rw [step_of_host_nil hdue hhost] at hstep
    cases hstep
    exact s.sameBlock_afterTake []
  | cons op rest =>
    rw [step_eq_performLine hdue hhost] at hstep
    have htake := s.sameBlock_afterTake rest
    have hop : op ≠ .reset := by
      rintro rfl
      exact hreset rest hhost
    exact htake.trans (sameBlock_of_performLine_busy (htake.busy_eq.trans hbusy) hop hstep)

/-- Settles O55: the completion step keeps the inputs, and any other step but reset keeps the whole block. -/
theorem frozenWhileBusy : Obligations.FrozenWhileBusy := by
  unfold Obligations.FrozenWhileBusy
  intro s t hbusy hstep hreset
  have hframe (hdue : ¬ s.engineDue) : sameBlock s t := sameBlock_of_step_busy hbusy hdue hreset hstep
  refine ⟨?_, hframe⟩
  by_cases hdue : s.engineDue
  · exact sameInputs_of_step_due hdue hstep
  · obtain ⟨hinputs, -⟩ := hframe hdue
    exact hinputs

end Sys2Proof.Machine
end

section
/-! PROOFS. Encoding and decoding a command word (spec 30_encoding.md rules R65 to R67, R75 to R77; opcode_table.json). -/

namespace Sys2Proof

/-! ### The word of two fields -/

/-- The command word with the given fields, its ignored bits zero (R65, R76). -/
def wordOfFields (sel : BitVec 8) (conv : Bool) : Word := 0#23 ++ BitVec.ofBool conv ++ sel

theorem wordOfFields_toNat (sel : BitVec 8) (conv : Bool) :
    (wordOfFields sel conv).toNat = conv.toNat * 256 + sel.toNat := by
  simp only [wordOfFields, Machine.toNat_append_eq_add, BitVec.toNat_ofBool, BitVec.toNat_ofNat]
  omega

@[simp] theorem selField_wordOfFields (sel : BitVec 8) (conv : Bool) : selField (wordOfFields sel conv) = sel := by
  apply BitVec.eq_of_toNat_eq
  rw [selField_toNat, wordOfFields_toNat]
  omega

@[simp] theorem convField_wordOfFields (sel : BitVec 8) (conv : Bool) : convField (wordOfFields sel conv) = conv := by
  have hsel := sel.isLt
  rw [convField_eq_decide, wordOfFields_toNat]
  cases conv
  · exact decide_eq_false (by simp only [Bool.toNat_false]; omega)
  · exact decide_eq_true (by simp only [Bool.toNat_true]; omega)

/-- Masking the ignored bits leaves the word of the two fields (R76). -/
theorem and_mask_eq_wordOfFields (v : Word) : v &&& 0x000001FF#32 = wordOfFields (selField v) (convField v) := by
  apply BitVec.eq_of_toNat_eq
  have hmask : (v &&& 0x000001FF#32).toNat = v.toNat % 2 ^ 9 := Nat.and_two_pow_sub_one_eq_mod v.toNat 9
  have hconv : (convField v).toNat = v.toNat / 256 % 2 := by
    rw [convField_eq_decide]
    rcases Nat.mod_two_eq_zero_or_one (v.toNat / 256) with h | h <;> simp [h]
  rw [hmask, wordOfFields_toNat, selField_toNat, hconv]
  omega

/-! ### Decoding after encoding -/

/-- The four bytes of a word decode as the word (R48). -/
theorem decodeBytes_bytesOfWord (v : Word) : decodeBytes (bytesOfWord v) = .ok (decode v) := by
  have hjoin : wordOfBytes (v.extractLsb' 0 8) (v.extractLsb' 8 8) (v.extractLsb' 16 8) (v.extractLsb' 24 8) = v := by
    simp only [wordOfBytes, BitVec.extractLsb'_append_extractLsb'_eq_extractLsb']
    exact BitVec.extractLsb'_eq_self
  rw [bytesOfWord, decodeBytes, hjoin]

theorem decode_encode {i : Instr} (h : i.wellFormed = true) : decode (encode i) = i := by
  cases i with
  | invalidSel sel conv =>
    have hsel : 2 < sel.toNat := of_decide_eq_true h
    show decode (wordOfFields sel conv) = _
    rw [decode_of_invalid_sel (by simpa using hsel), selField_wordOfFields, convField_wordOfFields]
  | _ => rfl

/-- Settles O3: an encoded instruction has the fields it is decoded by, and four bytes are one word. -/
theorem encodeDecode : Obligations.EncodeDecode := by
  unfold Obligations.EncodeDecode
  intro i h
  rw [decodeBytes_bytesOfWord, decode_encode h]
  exact ⟨rfl, rfl⟩

/-! ### Encoding after decoding -/

/-- Every word falls under one of the clauses of R77. -/
theorem decode_cases (v : Word) :
    (2 < (selField v).toNat ∧ decode v = .invalidSel (selField v) (convField v)) ∨
    (∃ k : Machine.Kind, decode v = k.instr ∧ encode k.instr = wordOfFields (selField v) (convField v)) := by
  rcases Nat.lt_or_ge 2 (selField v).toNat with hsel | hsel
  · exact .inl ⟨hsel, decode_of_invalid_sel hsel⟩
  have hvalid : selField v = 0#8 ∨ selField v = 1#8 ∨ selField v = 2#8 := by bv_omega
  right
  cases hconv : convField v with
  | false =>
    obtain ⟨hreal, hfixed, hbytes⟩ := decode_of_conv_clear hconv
    rcases hvalid with h | h | h <;> rw [h] at hreal hfixed hbytes ⊢
    · exact ⟨.runReal, hreal rfl, rfl⟩
    · exact ⟨.runFixed, hfixed rfl, rfl⟩
    · exact ⟨.runBytes, hbytes rfl, rfl⟩
  | true =>
    obtain ⟨hreal, hfixed, hbytes⟩ := decode_of_conv_set hconv
    rcases hvalid with h | h | h <;> rw [h] at hreal hfixed hbytes ⊢
    · exact ⟨.convReal, hreal rfl, rfl⟩
    · exact ⟨.convFixed, hfixed rfl, rfl⟩
    · exact ⟨.convBytes, hbytes rfl, rfl⟩

theorem decode_wellFormed (v : Word) : (decode v).wellFormed = true := by
  obtain ⟨hsel, h⟩ | ⟨k, h, -⟩ := decode_cases v <;> rw [h]
  · exact decide_eq_true hsel
  · cases k <;> rfl

theorem encode_decode (v : Word) : encode (decode v) = wordOfFields (selField v) (convField v) := by
  obtain ⟨-, h⟩ | ⟨k, h, hword⟩ := decode_cases v <;> rw [h]
  · rfl
  · exact hword

/-- Settles O4: the encoding of what a word decodes to is the word of its two fields. -/
theorem decodeEncode : Obligations.DecodeEncode := by
  unfold Obligations.DecodeEncode
  exact fun v => ⟨decode_wellFormed v, (encode_decode v).trans (and_mask_eq_wordOfFields v).symm⟩

/-- Settles O1: the thirteen words, by evaluation. -/
theorem decodesWrittenWords : Obligations.DecodesWrittenWords := by
  unfold Obligations.DecodesWrittenWords
  decide

/-! ### The opcode table -/

/-- No row of the table looks at an ignored bit (R76). -/
theorem OpcodeRow.matches_and_mask {r : OpcodeRow} (hr : r ∈ opcodeTable) (v : Word) :
    r.matches (v &&& 0x000001FF#32) = r.matches v := by
  have hmask : ∀ r ∈ opcodeTable, 0x000001FF#32 &&& r.mask = r.mask := by decide
  rw [OpcodeRow.matches, OpcodeRow.matches, BitVec.and_assoc, hmask r hr]

/-- The two fields fall under one row, the one that names the instruction: 2^9 words to look at. -/
theorem opcodeTable_filter_wordOfFields : ∀ (sel : BitVec 8) (conv : Bool),
    (opcodeTable.filter (fun r => r.matches (wordOfFields sel conv))).map OpcodeRow.mnemonic =
      [(decode (wordOfFields sel conv)).mnemonic] := by
  decide

/-- Settles O5: the rows see the two fields alone, and each pair of fields falls under one row. -/
theorem opcodeTableSplitsTheWords : Obligations.OpcodeTableSplitsTheWords := by
  unfold Obligations.OpcodeTableSplitsTheWords
  intro v
  have hrows : opcodeTable.filter (fun r => r.matches v) =
      opcodeTable.filter (fun r => r.matches (wordOfFields (selField v) (convField v))) := by
    refine List.filter_congr fun r hr => ?_
    rw [← and_mask_eq_wordOfFields, OpcodeRow.matches_and_mask hr]
  have hdecode : decode (wordOfFields (selField v) (convField v)) = decode v :=
    decode_congr (selField_wordOfFields _ _) (convField_wordOfFields _ _)
  have hone := opcodeTable_filter_wordOfFields (selField v) (convField v)
  rw [hdecode, ← hrows, List.map_eq_singleton_iff] at hone
  exact hone

end Sys2Proof
end

section
/-! PROOFS. The register map, the window as bytes and as addresses, and the frame of a write (spec 20_memory.md rules
R40 to R48). -/

namespace Sys2Proof.Machine

/-! ### The register map -/

/-- The register at an offset has that offset. -/
theorem Reg.offset_of_atOffset {off : Offset} {r : Reg} (h : Reg.atOffset off = some r) : r.offset = off := by
  have hfound := List.find?_some h
  exact eq_of_beq hfound

theorem Reg.atOffset_eq_some_iff {off : Offset} {r : Reg} : Reg.atOffset off = some r ↔ r.offset = off := by
  refine ⟨Reg.offset_of_atOffset, ?_⟩
  rintro rfl
  exact r.atOffset_offset

/-- The aligned offsets that the table of R41 leaves out, offset by offset. -/
theorem Reg.atOffset_eq_none_iff_unmapped : ∀ off : Offset, off.toNat % 4 = 0 →
    (Reg.atOffset off = none ↔
      off.toNat = 0x00C ∨ (0x030 ≤ off.toNat ∧ off.toNat ≤ 0x03F) ∨ (0x070 ≤ off.toNat ∧ off.toNat ≤ 0x07F) ∨
      (0x098 ≤ off.toNat ∧ off.toNat ≤ 0x09F) ∨ 0x0B4 ≤ off.toNat) := by
  decide

/-- Settles O7: the table row by row, and the accesses by the constructors of `Reg`. -/
theorem registerMap : Obligations.RegisterMap := by
  unfold Obligations.RegisterMap
  refine ⟨fun off r => Reg.atOffset_eq_some_iff, rfl, rfl, rfl, rfl, rfl, rfl, rfl, rfl, rfl, rfl, rfl,
    fun k => ?_, fun k => ?_, fun k => ?_, fun j => ?_, Reg.atOffset_eq_none_iff_unmapped, fun r => ?_, fun r => ?_,
    fun _ => rfl⟩
  · cases k <;> rfl
  · cases k <;> rfl
  · cases k <;> rfl
  · fin_cases j <;> rfl
  · cases r <;> simp [Reg.readOnly]
  · cases r <;> simp [Reg.isResult]

/-! ### The window as bytes -/

/-- The byte at an offset inside a register's word is that register's (R48). -/
theorem State.windowByte_of_offset_eq (s : State) {off : Offset} {r : Reg} (h : r.offset.toNat = 4 * (off.toNat / 4)) :
    s.windowByte off = some (byteOf (s.value r) (off.toNat % 4)) := by
  have hword : BitVec.ofNat 8 (4 * (off.toNat / 4)) = r.offset := by rw [← h, BitVec.ofNat_toNat, BitVec.setWidth_eq]
  simp [State.windowByte, hword, r.atOffset_offset]

/-- Settles O14: a register's offset is a multiple of four below 256, so its four bytes are its word's. -/
theorem windowBytes : Obligations.WindowBytes := by
  unfold Obligations.WindowBytes
  intro s r i hi
  have haligned := r.offset_aligned
  have hlt := r.offset.isLt
  have hoff : (BitVec.ofNat 8 (r.offset.toNat + i)).toNat = r.offset.toNat + i := by
    rw [BitVec.toNat_ofNat]
    omega
  refine ⟨_, s.windowByte_of_offset_eq (r := r) (by omega), ?_⟩
  rw [hoff, show (r.offset.toNat + i) % 4 = i by omega, byteOf, BitVec.extractLsb'_toNat, Nat.shiftRight_eq_div_pow]

/-! ### The window as addresses -/

theorem windowOffset_of_outside {base addr : Nat} (h : addr < base ∨ base + 256 ≤ addr) :
    windowOffset base addr = none := by
  rw [windowOffset, if_neg (by omega)]

theorem windowOffset_add (base : Nat) (off : Offset) : windowOffset base (base + off.toNat) = some off := by
  have hlt := off.isLt
  rw [windowOffset, if_pos (by omega), Nat.add_sub_cancel_left, BitVec.ofNat_toNat, BitVec.setWidth_eq]

/-- Settles O15: by whether the address has an offset in the window. -/
theorem windowAddresses : Obligations.WindowAddresses := by
  unfold Obligations.WindowAddresses
  refine ⟨fun base addr line s h => ?_, windowOffset_add, fun base off line s => ?_⟩
  · simp [issueAt, windowOffset_of_outside h]
  · simp [issueAt, windowOffset_add]

/-! ### What a store changes of what the registers read as -/

/-- A stored word reads back, `CTRL` without its reserved bits (R46, R76). -/
theorem value_storeReg_self {r : Reg} (hr : r.readOnly = false) (hcmd : r ≠ .cmd) (v : Word) (s : State) :
    (storeReg r v s).value r = if r = .ctrl then v &&& 0x0000F13F#32 else v := by
  cases r with
  | ctrl => exact value_ctrl_storeReg s v
  | cmd => exact absurd rfl hcmd
  | param p h => simp [State.value]
  | coefR k h => simp [State.value]
  | status | coefQ _ | pack _ => simp [Reg.readOnly] at hr

/-- A store leaves what every other register reads as (R46). -/
theorem value_storeReg_of_ne {r r' : Reg} (hne : r' ≠ r) (v : Word) (s : State) :
    (storeReg r v s).value r' = s.value r' := by
  have hstatus : (storeReg r v s).statusWord = s.statusWord := by simp [State.statusWord, State.busy]
  cases r with
  | cmd | status | coefQ _ | pack _ => rfl
  | ctrl => cases r' <;> simp_all [State.value]
  | param p h =>
    cases r' with
    | param p' h' =>
      by_cases hp : p' = p
      · subst hp
        have hh : h' ≠ h := by simpa using hne
        simp [State.value, halfOf_withHalf_of_ne _ hh]
      · simp [State.value, State.param_setParam_of_ne _ hp]
    | _ => simp_all [State.value]
  | coefR k h =>
    cases r' with
    | coefR k' h' =>
      by_cases hk : k' = k
      · subst hk
        have hh : h' ≠ h := by simpa using hne
        simp [State.value, halfOf_withHalf_of_ne _ hh]
      · simp [State.value, Six.get_set_of_ne _ hk]
    | _ => simp_all [State.value]

/-- An idle block stores the word that the host writes to a writable register other than `CMD` (R46). -/
theorem step_wr_stored {s : State} {r : Reg} {v : Word} {rest : List HostOp} (hidle : s.busy = false)
    (hr : r.readOnly = false) (hcmd : r ≠ .cmd) (hhost : s.host = wr r v :: rest) :
    step s = .next (storeReg r v ((s.setHost rest).receive .written)) := by
  have hdue := State.not_engineDue_of_idle (s.busy_eq_false_iff.mp hidle)
  rw [step_wr hdue hhost, State.afterTake_of_idle hidle, writeReg_stored hr hcmd (by simpa using hidle)]

/-- The host's side is not seen in what a register reads as. -/
theorem value_of_taken (s : State) (rest : List HostOp) (resp : Response) (r : Reg) :
    ((s.setHost rest).receive resp).value r = s.value r :=
  ((sameBlock_setHost s rest).trans (sameBlock_receive resp _)).value_eq r

/-- A byte of the window follows the register that holds it (R48). -/
theorem State.windowByte_congr {s t : State} {off : Offset}
    (h : ∀ r : Reg, r.offset.toNat = 4 * (off.toNat / 4) → t.value r = s.value r) :
    t.windowByte off = s.windowByte off := by
  have hlt := off.isLt
  cases hreg : Reg.atOffset (BitVec.ofNat 8 (4 * (off.toNat / 4))) with
  | none => simp [State.windowByte, hreg]
  | some r =>
    have hoff : r.offset.toNat = 4 * (off.toNat / 4) := by
      rw [Reg.offset_of_atOffset hreg, BitVec.toNat_ofNat]
      omega
    simp [State.windowByte, hreg, h r hoff]

/-- Settles O12: the store read back, register by register, and the bytes by the registers that hold them. -/
theorem writeFrame : Obligations.WriteFrame := by
  unfold Obligations.WriteFrame
  intro s t r v rest hidle hr hcmd hhost hstep
  rw [step_wr_stored hidle hr hcmd hhost] at hstep
  cases hstep
  have hother (r' : Reg) (hne : r' ≠ r) :
      (storeReg r v ((s.setHost rest).receive .written)).value r' = s.value r' := by
    rw [value_storeReg_of_ne hne, value_of_taken]
  refine ⟨value_storeReg_self hr hcmd v _, hother, fun off hoff => State.windowByte_congr fun r' hr' => hother r' ?_⟩
  rintro rfl
  omega

/-! ### The two words of a binary64 register -/

/-- A binary64 register with its whole value replaced. -/
def WideReg.set : WideReg → Binary64 → State → State
  | .param p, v, s => s.setParam p v
  | .coefR k, v, s => s.setCoefR (s.coefR.set k v)

theorem WideReg.word_readOnly (x : WideReg) (h : Half) : (x.word h).readOnly = false := by cases x <;> rfl

theorem WideReg.word_ne_cmd (x : WideReg) (h : Half) : x.word h ≠ .cmd := by cases x <;> exact nofun

/-- Both words replaced is the whole value replaced, in either order (R48). -/
theorem withHalf_withHalf (x v : Binary64) {h g : Half} (hne : g ≠ h) :
    withHalf (withHalf x h (halfOf v h)) g (halfOf v g) = v := by
  have hg : halfOf (withHalf (withHalf x h (halfOf v h)) g (halfOf v g)) g = halfOf v g := halfOf_withHalf_self _ g _
  have hh : halfOf (withHalf (withHalf x h (halfOf v h)) g (halfOf v g)) h = halfOf v h := by
    rw [halfOf_withHalf_of_ne _ hne.symm, halfOf_withHalf_self]
  cases h <;> cases g
  · exact absurd rfl hne
  · exact eq_of_halfOf hh hg
  · exact eq_of_halfOf hg hh
  · exact absurd rfl hne

/-- Two stores, one of each word, are a store of the whole value (R46, R48). -/
theorem storeReg_both_words (x : WideReg) (v : Binary64) (s : State) {h g : Half} (hne : g ≠ h) :
    storeReg (x.word g) (halfOf v g) (storeReg (x.word h) (halfOf v h) s) = x.set v s := by
  cases x with
  | param p =>
    simp only [WideReg.word, storeReg_param, State.param_setParam_self, withHalf_withHalf _ _ hne]
    cases p <;> rfl
  | coefR k =>
    simp only [WideReg.word, storeReg_coefR, State.setCoefR_coefR, Six.get_set_self, withHalf_withHalf _ _ hne]
    cases k <;> rfl

theorem storeReg_setHost (r : Reg) (v : Word) (s : State) (lines : List HostOp) :
    storeReg r v (s.setHost lines) = (storeReg r v s).setHost lines := by
  cases r with
  | param p h => cases p <;> rfl
  | _ => rfl

theorem storeReg_receive (r : Reg) (v : Word) (s : State) (resp : Response) :
    storeReg r v (s.receive resp) = (storeReg r v s).receive resp := by
  cases r with
  | param p h => cases p <;> rfl
  | _ => rfl

theorem storeReg_busy (r : Reg) (v : Word) (s : State) : (storeReg r v s).busy = s.busy := by
  rw [State.busy, State.busy, storeReg_pend]

/-- The write of a word to an idle block, with the host's lines set. -/
theorem step_setHost_wr_stored {s : State} {r : Reg} (hidle : s.busy = false) (hr : r.readOnly = false)
    (hcmd : r ≠ .cmd) (v : Word) (rest : List HostOp) :
    step (s.setHost (wr r v :: rest)) = .next (((storeReg r v s).receive .written).setHost rest) := by
  rw [step_wr_stored (s := s.setHost (wr r v :: rest)) hidle hr hcmd rfl, storeReg_receive, storeReg_setHost,
    storeReg_setHost]
  rfl

/-- The host's two writes of the words of a register, in the order `h`, `g`. -/
theorem run_two_words {s : State} (x : WideReg) (v : Binary64) {h g : Half} (hne : g ≠ h) (hidle : s.busy = false) :
    Sys2Proof.core.run 2 (s.setHost [wr (x.word h) (halfOf v h), wr (x.word g) (halfOf v g)]) =
      .next ((((x.set v s).receive .written).receive .written).setHost []) := by
  have hidle' : (storeReg (x.word h) (halfOf v h) s).busy = false := (storeReg_busy _ _ s).trans hidle
  have hfirst := step_setHost_wr_stored hidle (x.word_readOnly h) (x.word_ne_cmd h) (halfOf v h)
    [wr (x.word g) (halfOf v g)]
  have hsecond := step_setHost_wr_stored (s := (storeReg (x.word h) (halfOf v h) s).receive .written)
    hidle' (x.word_readOnly g) (x.word_ne_cmd g) (halfOf v g) []
  rw [run_succ hfirst, run_succ hsecond, storeReg_receive, storeReg_both_words x v s hne]
  rfl

/-- Settles O13: either order replaces the whole value. -/
theorem eitherWordOrder : Obligations.EitherWordOrder := by
  unfold Obligations.EitherWordOrder
  intro s x v hidle
  have hlohi := run_two_words x v (h := .lo) (g := .hi) nofun hidle
  have hhilo := run_two_words x v (h := .hi) (g := .lo) nofun hidle
  refine ⟨_, _, hlohi, hhilo, rfl, ?_⟩
  cases x with
  | param p => simp [WideReg.set]
  | coefR k => simp [WideReg.set]

/-! ### Bus errors by policy -/

/-- Settles O9: the step is the bus error, which is what the platform's policy makes of it (R162). -/
theorem busErrorPolicies : Obligations.BusErrorPolicies := by
  unfold Obligations.BusErrorPolicies
  intro s op w off rest f hdue hhost hop hcause
  have hcheck : checkAccess w off = .error f := BusErrorOf.checkAccess_eq hcause
  rw [step_of_error hdue hhost hop hcheck]
  refine ⟨fun hpolicy => ?_, fun hpolicy => ?_⟩
  · simp [busError, hpolicy]
  · exact ⟨(s.afterTake rest).receive (.busError f), by simp [busError, hpolicy],
      (s.sameBlock_afterTake rest).trans (sameBlock_receive _ _), rfl, rfl, rfl⟩

end Sys2Proof.Machine
end

section
/-! PROOFS. What `exec` can do, and the completion step (spec 42_commands.md rules R140 to R149). -/

namespace Sys2Proof.Machine

/-! ### The outcomes of `exec` -/

/-- Everything `exec` can do: nothing, reject, accept, or complete the command in flight. -/
theorem exec_outcomes (i : Instr) (s : State) :
    (s.pend ≠ none ∧ exec i s = .next s) ∨
    (s.pend = none ∧ (∃ sel conv, i = .invalidSel sel conv) ∧ exec i s = .next s.statusRejected) ∨
    (s.pend = none ∧ ∃ k, i = Kind.instr k ∧ exec i s = .next (accept k s)) ∨
    (∃ k S, i = Kind.instr k ∧ s.pend = some ⟨k, S, 0⟩ ∧ exec i s = .next (finish (k.effect S s))) := by
  obtain ⟨k, -, rfl, -⟩ | ⟨sel, conv, rfl, hreject⟩ := exec_shape i
  · cases hpend : s.pend with
    | none => exact .inr (.inr (.inl ⟨rfl, k, rfl, exec_instr_idle hpend k⟩))
    | some p =>
      by_cases hdue : p.kind = k ∧ p.turns = 0
      · obtain ⟨rfl, hturns⟩ := hdue
        obtain ⟨k, S, m⟩ := p
        subst hturns
        exact .inr (.inr (.inr ⟨k, S, rfl, rfl, exec_instr_due hpend⟩))
      · refine .inl ⟨nofun, ?_⟩
        have hnot : p.due k = false := by simpa [InFlight.due] using hdue
        simp [exec_instr, command, hpend, hnot]
  · rw [hreject]
    cases hpend : s.pend with
    | none => exact .inr (.inl ⟨rfl, ⟨sel, conv, rfl⟩, by simp [reject, hpend]⟩)
    | some p => exact .inl ⟨nofun, by simp [reject, hpend]⟩

/-- Settles O28: each outcome is a next state. -/
theorem execNeverStops : Obligations.ExecNeverStops := by
  unfold Obligations.ExecNeverStops
  intro i s
  obtain ⟨-, h⟩ | ⟨-, -, h⟩ | ⟨-, k, -, h⟩ | ⟨k, S, -, -, h⟩ := exec_outcomes i s <;> exact ⟨_, h⟩

/-- Settles O18: acceptance changes `PEND` and the status alone. -/
theorem execAccepts : Obligations.ExecAccepts := by
  unfold Obligations.ExecAccepts
  intro s k hidle
  refine ⟨_, _, exec_instr_idle hidle k, accept_pend s k, rfl, rfl, rfl, rfl, ?_, ?_, ?_⟩
  · simp [sameInputs]
  · simp [sameResults]
  · simp [sameHost]

/-! ### The frame of `exec` -/

/-- The registers that hold no result and no status read as the inputs. -/
theorem sameInputs.value_eq {s t : State} (h : sameInputs s t) {r : Reg} (hresult : r.isResult = false)
    (hstatus : r ≠ .status) : t.value r = s.value r := by
  obtain ⟨hctrl, hfreq, hgain, hsrate, hqval⟩ := h
  cases r with
  | ctrl => simp [State.value, hctrl]
  | cmd => rfl
  | status => exact absurd rfl hstatus
  | param p h => cases p <;> simp [State.value, State.param, *]
  | coefR _ _ | coefQ _ | pack _ => simp [Reg.isResult] at hresult

/-- Which commands write which result registers (R142 to R147). -/
theorem Kind.effect_writes (k : Kind) (S : Snapshot) (s : State) :
    ((k.effect S s).coefR ≠ s.coefR → k = .runReal ∨ k = .runFixed ∨ k = .runBytes) ∧
    ((k.effect S s).coefQ ≠ s.coefQ → k = .runFixed ∨ k = .runBytes ∨ k = .convFixed ∨ k = .convBytes) ∧
    ((k.effect S s).pack ≠ s.pack → k = .runBytes ∨ k = .convBytes) := by
  cases k <;> simp

theorem sameResults_accept (k : Kind) (s : State) : sameResults s (accept k s) := by simp [sameResults]

/-- What `exec` leaves of the inputs and of the host's side. -/
theorem exec_sameInputs_sameHost {i : Instr} {s t : State} (h : exec i s = .next t) :
    sameInputs s t ∧ sameHost s t := by
  obtain ⟨-, he⟩ | ⟨-, -, he⟩ | ⟨-, k, -, he⟩ | ⟨k, S, -, -, he⟩ := exec_outcomes i s <;> cases he.symm.trans h
  · simp [sameInputs, sameHost]
  · simp [sameInputs, sameHost]
  · simp [sameInputs, sameHost]
  · obtain ⟨-, -, -, hinputs, hhost⟩ := finish_effect_frame k S s
    exact ⟨hinputs, hhost⟩

/-- `exec` keeps the result registers, or completes the command in flight. -/
theorem exec_sameResults_or_completes {i : Instr} {s t : State} (h : exec i s = .next t) :
    sameResults s t ∨ ∃ k S, i = Kind.instr k ∧ s.pend = some ⟨k, S, 0⟩ ∧ t = finish (k.effect S s) := by
  obtain ⟨-, he⟩ | ⟨-, -, he⟩ | ⟨-, k, -, he⟩ | ⟨k, S, hi, hpend, he⟩ := exec_outcomes i s <;> cases he.symm.trans h
  · exact .inl ⟨rfl, rfl, rfl⟩
  · exact .inl (sameResults_statusRejected s)
  · exact .inl (sameResults_accept k s)
  · exact .inr ⟨k, S, hi, hpend, rfl⟩

/-- Settles O29: `exec` changes the results at a completion alone, and then those that its command writes. -/
theorem execFrame : Obligations.ExecFrame := by
  unfold Obligations.ExecFrame
  intro i s t h
  obtain ⟨hinputs, hhost⟩ := exec_sameInputs_sameHost h
  refine ⟨hinputs, hhost, fun r => hinputs.value_eq, ?_⟩
  obtain hsame | ⟨k, S, rfl, hpend, rfl⟩ := exec_sameResults_or_completes h
  · obtain ⟨hcoefR, hcoefQ, hpack⟩ := hsame
    exact ⟨fun hne => absurd hcoefR hne, fun hne => absurd hcoefQ hne, fun hne => absurd hpack hne,
      fun _ => ⟨hcoefR, hcoefQ, hpack⟩⟩
  · obtain ⟨hcoefR, hcoefQ, hpack⟩ := Kind.effect_writes k S s
    refine ⟨fun hne => ?_, fun hne => ?_, fun hne => ?_, fun hdue => absurd ⟨_, hpend, rfl⟩ hdue⟩
    · rcases hcoefR hne with rfl | rfl | rfl <;> simp [Kind.instr]
    · rcases hcoefQ hne with rfl | rfl | rfl | rfl <;> simp [Kind.instr]
    · rcases hpack hne with rfl | rfl <;> simp [Kind.instr]

/-! ### The completion step -/

/-- The commands that pack write the bytes of the words they write (R128, R144, R147). -/
theorem Kind.effect_pack {k : Kind} (h : k = .runBytes ∨ k = .convBytes) (S : Snapshot) (s : State) (c : Coef) :
    (k.effect S s).pack.get c = tripleOf ((k.effect S s).coefQ.get c) := by
  rcases h with rfl | rfl <;> simp [packBytes]

/-- Settles O27: the completion step is the end of the command in flight. -/
theorem completionStep : Obligations.CompletionStep := by
  unfold Obligations.CompletionStep
  rintro s ⟨⟨k, S, _⟩, hpend, rfl⟩
  obtain ⟨hidle, hdone, herr, hinputs, hhost⟩ := finish_effect_frame k S s
  refine ⟨_, step_due hpend, hidle, rfl, hdone, herr, hinputs, hhost, fun p hp hkind => ?_⟩
  obtain rfl : ⟨k, S, 0⟩ = p := Option.some.inj (hpend.symm.trans hp)
  exact Kind.effect_pack hkind S s

end Sys2Proof.Machine
end

section
/-! PROOFS. Everything a step can do, and what every step keeps (spec 30_encoding.md rule R68, 42_commands.md rule R150,
60_exceptions.md rule R164, 70_reset_and_hazards.md rules R180 to R187). -/

namespace Sys2Proof.Machine

/-! ### The outcomes of a step -/

/-- A write that goes on reached a register of the window or was answered with a bus error. -/
theorem performLine_write {w : Width} {off : Offset} {v : Word} {s t : State}
    (h : performLine exec (.write w off v) s = .next t) :
    sameBlock s t ∨ ∃ r, HostOp.write w off v = wr r v ∧ writeReg exec r v (s.receive .written) = .next t := by
  rw [performLine] at h
  obtain ⟨-, hc⟩ | ⟨-, -, hc⟩ | ⟨-, -, -, hc⟩ | ⟨r, rfl, -, hr, hc⟩ := checkAccess_cases w off <;> rw [hc] at h
  · exact .inl (sameBlock_of_busError h)
  · exact .inl (sameBlock_of_busError h)
  · exact .inl (sameBlock_of_busError h)
  · exact .inr ⟨r, by rw [wr, Reg.offset_of_atOffset hr], h⟩

/-- A read keeps the block, whatever it is answered. -/
theorem performLine_read {run : Instr → State → Result} {w : Width} {off : Offset} {s t : State}
    (h : performLine run (.read w off) s = .next t) : sameBlock s t := by
  rw [performLine] at h
  split at h
  · exact sameBlock_of_busError h
  · next r _ =>
    cases h
    obtain ⟨hread, -⟩ := readReg_effect r s
    exact hread

/-- A line of the host other than reset keeps the block, or it is a write to an idle block that presents a word or stores
one. -/
theorem performLine_outcomes {op : HostOp} {s t : State} (hreset : op ≠ .reset) (h : performLine exec op s = .next t) :
    sameBlock s t ∨
    (s.busy = false ∧ ∃ v, op = wr .cmd v ∧ exec (decode v) (s.receive .written) = .next t) ∨
    (s.busy = false ∧ ∃ r v, op = wr r v ∧ r.readOnly = false ∧ r ≠ .cmd ∧ t = storeReg r v (s.receive .written)) := by
  cases op with
  | read w off => exact .inl (performLine_read h)
  | poll =>
    cases h
    exact .inl (sameBlock_pollStatus s)
  | reset => exact absurd rfl hreset
  | write w off v =>
    obtain hsame | ⟨r, hop, hwrite⟩ := performLine_write h
    · exact .inl hsame
    rw [hop]
    obtain ⟨-, hw⟩ | ⟨-, -, hw⟩ | ⟨rfl, hidle, hw⟩ | ⟨hr, hcmd, hidle, hw⟩ :=
      writeReg_cases exec r v (s.receive .written) <;> rw [hw] at hwrite
    · cases hwrite
      exact .inl (sameBlock_receive _ s)
    · cases hwrite
      exact .inl (sameBlock_receive _ s)
    · exact .inr (.inl ⟨hidle, v, rfl, hwrite⟩)
    · cases hwrite
      exact .inr (.inr ⟨hidle, r, v, rfl, hr, hcmd, rfl⟩)

/-- Everything a step can do to the block: complete the command in flight, reset it, nothing, or, while idle, run a
command word or store a word. -/
theorem step_outcomes {s t : State} (h : step s = .next t) :
    (∃ k S, s.pend = some ⟨k, S, 0⟩ ∧ t = finish (k.effect S s)) ∨
    (∃ rest, s.host = .reset :: rest ∧ t = resetBlock (s.afterTake rest)) ∨
    sameBlock s t ∨
    (s.pend = none ∧ ∃ v rest, s.host = wr .cmd v :: rest ∧
      exec (decode v) ((s.setHost rest).receive .written) = .next t) ∨
    (s.pend = none ∧ ∃ r v rest, s.host = wr r v :: rest ∧ r.readOnly = false ∧ r ≠ .cmd ∧
      t = storeReg r v ((s.setHost rest).receive .written)) := by
  by_cases hdue : s.engineDue
  · obtain ⟨⟨k, S, _⟩, hpend, rfl⟩ := hdue
    rw [step_due hpend] at h
    cases h
    exact .inl ⟨k, S, hpend, rfl⟩
  cases hhost : s.host with
  | nil =>
    rw [step_of_host_nil hdue hhost] at h
    cases h
    exact .inr (.inr (.inl (s.sameBlock_afterTake [])))
  | cons op rest =>
    rw [step_eq_performLine hdue hhost] at h
    by_cases hop : op = .reset
    · subst hop
      cases h
      exact .inr (.inl ⟨rest, rfl, rfl⟩)
    have htake := s.sameBlock_afterTake rest
    obtain hsame | ⟨hidle, hwrite⟩ | ⟨hidle, hwrite⟩ := performLine_outcomes hop h
    · exact .inr (.inr (.inl (htake.trans hsame)))
    · rw [htake.busy_eq] at hidle
      rw [State.afterTake_of_idle hidle] at hwrite
      obtain ⟨v, rfl, hexec⟩ := hwrite
      exact .inr (.inr (.inr (.inl ⟨s.busy_eq_false_iff.mp hidle, v, rest, rfl, hexec⟩)))
    · rw [htake.busy_eq] at hidle
      rw [State.afterTake_of_idle hidle] at hwrite
      obtain ⟨r, v, rfl, hr, hcmd, ht⟩ := hwrite
      exact .inr (.inr (.inr (.inr ⟨s.busy_eq_false_iff.mp hidle, r, v, rest, rfl, hr, hcmd, ht⟩)))

/-! ### The consistency relations -/

/-- The relations of an idle block. -/
theorem State.inv_of_idle {s : State} (h : s.pend = none) (hstatus : (s.done && s.err) = false) : s.Inv :=
  ⟨hstatus, fun p hp => by simp [h] at hp⟩

/-- The relations are of the block alone. -/
theorem State.Inv.of_sameBlock {s t : State} (hinv : s.Inv) (h : sameBlock s t) : t.Inv := by
  obtain ⟨⟨hctrl, hfreq, hgain, hsrate, hqval⟩, ⟨hcoefR, -, -⟩, hdone, herr, hflight⟩ := h
  obtain ⟨hexcl, hpend⟩ := hinv
  have hsnap : t.snapshot = s.snapshot := by simp [State.snapshot, *]
  refine ⟨by rw [hdone, herr, hexcl], fun p hp => ?_⟩
  rw [State.inFlight, hp, State.inFlight] at hflight
  obtain ⟨q, hq, hqp⟩ := Option.map_eq_some_iff.mp hflight.symm
  obtain ⟨hd, he, hs⟩ := hpend q hq
  have hpq : p.snap = q.snap := (congrArg Prod.snd hqp).symm
  exact ⟨hdone.trans hd, herr.trans he, by rw [hpq, hs, hsnap]⟩

/-- A command word run on an idle block is accepted or rejected, which both keep the relations. -/
theorem State.Inv.of_exec_idle {i : Instr} {s t : State} (hidle : s.pend = none) (h : exec i s = .next t) : t.Inv := by
  obtain ⟨hbusy, -⟩ | ⟨-, -, he⟩ | ⟨-, k, -, he⟩ | ⟨k, S, -, hpend, -⟩ := exec_outcomes i s
  · exact absurd hidle hbusy
  · cases he.symm.trans h
    exact State.inv_of_idle hidle rfl
  · cases he.symm.trans h
    refine ⟨rfl, fun p hp => ?_⟩
    cases hp
    exact ⟨rfl, rfl, rfl⟩
  · simp [hidle] at hpend

/-- Settles O51: the block is idle with both bits 0. -/
theorem resetIsConsistent : Obligations.ResetIsConsistent := State.inv_of_idle rfl rfl

/-- Settles O52: outcome by outcome; at a completion `ERR` is 0 since the command was in flight. -/
theorem stepKeepsConsistency : Obligations.StepKeepsConsistency := by
  unfold Obligations.StepKeepsConsistency
  intro s t hinv hstep
  obtain ⟨k, S, hpend, rfl⟩ | ⟨rest, -, rfl⟩ | hsame | ⟨hidle, v, rest, -, hexec⟩ |
    ⟨hidle, r, v, rest, -, -, -, rfl⟩ := step_outcomes hstep
  · obtain ⟨-, hflight⟩ := hinv
    obtain ⟨-, herr, -⟩ := hflight _ hpend
    exact State.inv_of_idle (finish_pend _) (by simp [herr])
  · exact State.inv_of_idle rfl rfl
  · exact hinv.of_sameBlock hsame
  · exact State.Inv.of_exec_idle (s := (s.setHost rest).receive .written) hidle hexec
  · obtain ⟨hexcl, -⟩ := hinv
    exact State.inv_of_idle (by simpa using hidle) (by simpa using hexcl)

/-! ### `ERR` -/

/-- Settles O53: of the outcomes of a step, reset and acceptance alone clear `ERR`. -/
theorem errorStays : Obligations.ErrorStays := by
  unfold Obligations.ErrorStays
  intro s t herr hstep hclear
  obtain ⟨k, S, -, rfl⟩ | ⟨rest, hhost, -⟩ | ⟨-, -, -, hsame, -⟩ | ⟨hidle, v, rest, hhost, hexec⟩ |
    ⟨-, r, v, rest, -, -, -, rfl⟩ := step_outcomes hstep
  · simp [herr] at hclear
  · exact .inl ⟨rest, hhost⟩
  · simp [hsame, herr] at hclear
  · obtain ⟨-, he⟩ | ⟨-, -, he⟩ | ⟨-, k, hdecode, -⟩ | ⟨k, S, -, hpend, -⟩ :=
      exec_outcomes (decode v) ((s.setHost rest).receive .written)
    · cases he.symm.trans hexec
      simp [herr] at hclear
    · cases he.symm.trans hexec
      simp at hclear
    · exact .inr ⟨v, rest, k, hidle, hhost, hdecode⟩
    · simp [hidle] at hpend
  · simp [herr] at hclear

/-! ### The result registers -/

/-- Settles O54: a host's store is the one step left that can change a result register, and it changes `COEF_R`. -/
theorem resultsAreStable : Obligations.ResultsAreStable := by
  unfold Obligations.ResultsAreStable
  intro s t hstep hdue hreset
  have hkept (hsame : sameResults s t) : t.coefQ = s.coefQ ∧ t.pack = s.pack ∧
      (t.coefR ≠ s.coefR → s.busy = false ∧ ∃ k h v rest, s.host = wr (.coefR k h) v :: rest) := by
    obtain ⟨hcoefR, hcoefQ, hpack⟩ := hsame
    exact ⟨hcoefQ, hpack, fun hne => absurd hcoefR hne⟩
  obtain ⟨k, S, hpend, -⟩ | ⟨rest, hhost, -⟩ | ⟨-, hsame, -⟩ | ⟨hidle, v, rest, -, hexec⟩ |
    ⟨hidle, r, v, rest, hhost, hr, hcmd, rfl⟩ := step_outcomes hstep
  · exact absurd ⟨_, hpend, rfl⟩ hdue
  · exact absurd hhost (hreset rest)
  · exact hkept hsame
  · obtain hsame | ⟨k, S, -, hpend, -⟩ := exec_sameResults_or_completes hexec
    · exact hkept hsame
    · simp [hidle] at hpend
  · refine ⟨by simp, by simp, fun hne => ⟨s.busy_eq_false_iff.mpr hidle, ?_⟩⟩
    cases r with
    | coefR k h => exact ⟨k, h, v, rest, hhost⟩
    | _ => simp [storeReg] at hne

/-! ### Reset -/

/-- Settles O50: the block of the next state is the reset state's. -/
theorem resetDiscards : Obligations.ResetDiscards := by
  unfold Obligations.ResetDiscards
  intro s rest hdue hhost
  refine ⟨resetBlock (s.afterTake rest), step_eq_performLine hdue hhost, ?_, rfl, rfl, rfl, rfl⟩
  simp [sameBlock, sameInputs, sameResults, State.inFlight]

/-! ### The hazard rules -/

/-- The write of a writable register by a host that breaks no hazard rule finds the block idle (R185, R187). -/
theorem State.idle_of_no_hazard_write {s : State} {r : Reg} {v : Word} {rest : List HostOp} (h : ¬ s.hazard)
    (hhost : s.host = wr r v :: rest) (hr : r.readOnly = false) : s.busy = false := by
  by_contra hbusy
  exact h ⟨by simpa using hbusy, r, rest, .inl ⟨v, hhost, hr⟩⟩

/-- The read of a result register by such a host finds the block idle (R186). -/
theorem State.exact_of_no_hazard_read {s : State} {r : Reg} {rest : List HostOp} (h : ¬ s.hazard)
    (hhost : s.host = rd r :: rest) : r.isResult = false ∨ s.busy = false := by
  by_contra hinexact
  obtain ⟨hresult, hbusy⟩ : r.isResult = true ∧ s.busy = true := by simpa using hinexact
  exact h ⟨hbusy, r, rest, .inr ⟨hhost, hresult⟩⟩

/-- Settles O56: without a hazard a written register is written to an idle block, and a read is exact. -/
theorem hazardFreeHostLosesNothing : Obligations.HazardFreeHostLosesNothing := by
  unfold Obligations.HazardFreeHostLosesNothing
  intro s r rest hdue hhazard
  refine ⟨fun v hhost hr => ?_, fun hhost => ?_⟩
  · have hidle := State.idle_of_no_hazard_write hhazard hhost hr
    refine ⟨?_, fun hcmd => ⟨_, step_wr_stored hidle hr hcmd hhost, value_storeReg_self hr hcmd v _⟩⟩
    rintro rfl
    exact step_wr_cmd_idle (s.busy_eq_false_iff.mp hidle) hhost
  · have hsame := s.sameBlock_afterTake rest
    have hexact := (State.exact_of_no_hazard_read hhazard hhost).imp_right hsame.busy_eq.trans
    obtain ⟨-, -, -, hseen⟩ := readReg_effect r (s.afterTake rest)
    rw [readWord_eq_value hexact, hsame.value_eq r] at hseen
    exact ⟨_, step_rd hdue hhost, hseen⟩

end Sys2Proof.Machine
end

section
/-! PROOFS. The turns of the host before a completion (spec 42_commands.md rule R149, 70_reset_and_hazards.md rule
R188). -/

namespace Sys2Proof.Machine

/-! ### Steps before and at the completion -/

theorem not_engineDue_of_turns {s : State} {k : Kind} {S : Snapshot} {m : Nat} (h : s.pend = some ⟨k, S, m + 1⟩) :
    ¬ s.engineDue := by
  rintro ⟨p, hp, hturns⟩
  cases h.symm.trans hp
  cases hturns

theorem State.afterTake_pend {s : State} {k : Kind} {S : Snapshot} {m : Nat} (h : s.pend = some ⟨k, S, m + 1⟩)
    (rest : List HostOp) : (s.afterTake rest).pend = some ⟨k, S, m⟩ := by
  simp [State.afterTake, h, InFlight.elapse]

/-- A turn of a waiting host is one of those before the completion (R188). -/
theorem step_of_host_nil_busy {s : State} {k : Kind} {S : Snapshot} {m : Nat} (h : s.pend = some ⟨k, S, m + 1⟩)
    (hhost : s.host = []) : step s = .next (s.setPend (some ⟨k, S, m⟩)) := by
  rw [step_of_host_nil (not_engineDue_of_turns h) hhost, State.afterTake, h]
  exact congrArg Host.Outcome.next (State.setHost_eq_self hhost)

/-- Settles O16: by what the step finds in flight and in the host's lines. -/
theorem stepRunsTheCommand : Obligations.StepRunsTheCommand := by
  unfold Obligations.StepRunsTheCommand
  refine ⟨fun s v rest => step_wr_cmd_idle, fun s p hp hturns => ?_, fun s hp hhost => ?_,
    fun s k S m => step_of_host_nil_busy, fun s nbits w => ?_⟩
  · simp [step, turn, hp, hturns]
  · simp [step, turn, hp, hostTurn, hhost]
  · exact step_wr_cmd_idle rfl rfl

/-! ### The latency -/

theorem run_one (s : State) : Sys2Proof.core.run 1 s = step s := by
  cases h : step s with
  | next t => exact run_succ h
  | fault r | refused r =>
    simp only [Host.Core.run]
    rw [show Sys2Proof.core.step s = _ from h]
    rfl

theorem State.setPend_eq_self {s : State} {p : Option InFlight} (h : s.pend = p) : s.setPend p = s := by
  subst h
  rfl

/-- Settles O58: by induction on the host turns, each of which changes their number alone. -/
theorem latencyIsNotSeen : Obligations.LatencyIsNotSeen := by
  unfold Obligations.LatencyIsNotSeen
  intro s k S m
  induction m generalizing s with
  | zero =>
    intro hpend _
    rw [run_one, State.setPend_eq_self hpend]
  | succ m ih =>
    intro hpend hhost
    exact (run_succ (step_of_host_nil_busy hpend hhost)).trans (ih _ rfl hhost)

/-! ### The poll -/

/-- While the block is busy, a poll reads `STATUS` and stays (R79). -/
theorem step_poll_busy {s : State} {k : Kind} {S : Snapshot} {m : Nat} {rest : List HostOp}
    (h : s.pend = some ⟨k, S, m + 1⟩) (hhost : s.host = .poll :: rest) :
    ∃ t, step s = .next t ∧ t.pend = some ⟨k, S, m⟩ ∧ t.host = .poll :: rest ∧ sameInputs s t := by
  have htake := s.sameBlock_afterTake rest
  have hbusy : (s.afterTake rest).busy = true := by rw [htake.busy_eq, State.busy, h]; rfl
  have hread : readReg .status (s.afterTake rest) =
      (s.afterTake rest).receive (.data (readWord .status (s.afterTake rest))) := rfl
  have hpoll : pollStatus (s.afterTake rest) = (readReg .status (s.afterTake rest)).setHost (.poll :: rest) := by
    rw [pollStatus, hbusy]
    rfl
  obtain ⟨hinputs, -⟩ := htake.trans (sameBlock_pollStatus _)
  refine ⟨_, step_eq_performLine (not_engineDue_of_turns h) hhost, ?_, ?_, hinputs⟩
  · rw [hpoll, hread]
    exact State.afterTake_pend h rest
  · rw [hpoll]
    rfl

/-- Bit 0 of `STATUS` is `BUSY` (R68). -/
theorem State.statusWord_getLsbD_zero (s : State) : s.statusWord.getLsbD 0 = s.busy := by
  rw [BitVec.getLsbD, Nat.testBit_zero, s.statusWord_toNat]
  cases s.busy
  · exact decide_eq_false (by simp only [Bool.toNat_false]; omega)
  · exact decide_eq_true (by simp only [Bool.toNat_true]; omega)

/-- On an idle block a poll reads a word with bit 0 clear, and is over (R68, R79). -/
theorem step_poll_idle {s : State} {rest : List HostOp} (hidle : s.pend = none) (hhost : s.host = .poll :: rest) :
    ∃ t v, step s = .next t ∧ t.host = rest ∧ t.busy = false ∧ t.seen.head? = some (.data v) ∧
      v.getLsbD 0 = false ∧ sameInputs s t := by
  have hbusy := s.busy_eq_false_iff.mpr hidle
  have hstep : step s = .next (pollStatus (s.setHost rest)) := by
    rw [step_eq_performLine (State.not_engineDue_of_idle hidle) hhost, State.afterTake_of_idle hbusy]
    rfl
  have hpoll : pollStatus (s.setHost rest) = (s.setHost rest).receive (.data s.statusWord) := by
    rw [pollStatus, State.setHost_busy, hbusy]
    rfl
  rw [hpoll] at hstep
  obtain ⟨hinputs, -⟩ := (sameBlock_setHost s rest).trans (sameBlock_receive (.data s.statusWord) _)
  exact ⟨_, s.statusWord, hstep, rfl, hbusy, rfl, s.statusWord_getLsbD_zero.trans hbusy, hinputs⟩

theorem sameInputs.trans {s t u : State} (hst : sameInputs s t) (htu : sameInputs t u) : sameInputs s u := by
  simp_all [sameInputs]

/-- The poll of a busy block ends, by induction on the host turns before the completion. -/
theorem poll_ends_busy (m : Nat) {s : State} {k : Kind} {S : Snapshot} {rest : List HostOp}
    (hpend : s.pend = some ⟨k, S, m⟩) (hhost : s.host = .poll :: rest) :
    ∃ j t v, Sys2Proof.core.run j s = .next t ∧ t.host = rest ∧ t.busy = false ∧
      t.seen.head? = some (.data v) ∧ v.getLsbD 0 = false ∧ sameInputs s t := by
  induction m generalizing s with
  | zero =>
    obtain ⟨hidle, -, -, hinputs, hlines, -⟩ := finish_effect_frame k S s
    obtain ⟨t, v, hstep, hrest, hbusy, hseen, hbit, hinputs'⟩ := step_poll_idle hidle (hlines.trans hhost)
    have hrun : Sys2Proof.core.run 2 s = .next t := (run_succ (step_due hpend)).trans ((run_one _).trans hstep)
    exact ⟨2, t, v, hrun, hrest, hbusy, hseen, hbit, hinputs.trans hinputs'⟩
  | succ m ih =>
    obtain ⟨u, hstep, hpend', hhost', hinputs⟩ := step_poll_busy hpend hhost
    obtain ⟨j, t, v, hrun, hrest, hbusy, hseen, hbit, hinputs'⟩ := ih hpend' hhost'
    exact ⟨j + 1, t, v, (run_succ hstep).trans hrun, hrest, hbusy, hseen, hbit, hinputs.trans hinputs'⟩

/-- Settles O59: one step on an idle block, and after the completion on a busy one. -/
theorem pollEnds : Obligations.PollEnds := by
  unfold Obligations.PollEnds
  intro s rest hhost
  cases hpend : s.pend with
  | none =>
    obtain ⟨t, v, hstep, hend⟩ := step_poll_idle hpend hhost
    exact ⟨1, t, v, (run_one s).trans hstep, hend⟩
  | some p => exact poll_ends_busy p.turns hpend hhost

/-! ### The completion is taken -/

/-- A read keeps `PEND`. -/
@[simp] theorem readReg_pend (r : Reg) (s : State) : (readReg r s).pend = s.pend := by
  obtain h | ⟨-, -, h⟩ := readReg_cases r s <;> rw [h] <;> rfl

/-- On a busy block whose platform goes on after a bus error, a line other than reset goes on, keeps `PEND`, and leaves
no line to come but itself. -/
theorem performLine_goes_on {run : Instr → State → Result} {op : HostOp} {s : State} (hreset : op ≠ .reset)
    (hbusy : s.busy = true) (hpolicy : s.policy = .records) :
    ∃ t, performLine run op s = .next t ∧ t.pend = s.pend ∧ t.policy = .records ∧ (∀ l ∈ t.host, l = op ∨ l ∈ s.host) := by
  have herror (f : Fault) : busError f s = .next (s.receive (.busError f)) := by rw [busError, hpolicy]
  have hreceive (resp : Response) : ∀ l ∈ (s.receive resp).host, l = op ∨ l ∈ s.host := fun l hl => .inr hl
  cases op with
  | read w off =>
    cases hcheck : checkAccess w off with
    | error f => exact ⟨s.receive (.busError f), by simp [performLine, hcheck, herror], rfl, hpolicy, hreceive _⟩
    | ok r =>
      obtain ⟨-, hhost, hkeep, -⟩ := readReg_effect r s
      refine ⟨readReg r s, by simp [performLine, hcheck], readReg_pend r s, hkeep.trans hpolicy, fun l hl => .inr ?_⟩
      rwa [hhost] at hl
  | write w off v =>
    cases hcheck : checkAccess w off with
    | error f => exact ⟨s.receive (.busError f), by simp [performLine, hcheck, herror], rfl, hpolicy, hreceive _⟩
    | ok r =>
      have hignored : writeReg run r v (s.receive .written) = .next (s.receive .written) :=
        writeReg_ignored (.inr (by simpa using hbusy)) run v
      exact ⟨s.receive .written, by simp [performLine, hcheck, hignored], rfl, hpolicy, hreceive _⟩
  | poll =>
    have hpoll : pollStatus s = (readReg .status s).setHost (.poll :: s.host) := by rw [pollStatus, hbusy]; rfl
    obtain ⟨-, -, hkeep, -⟩ := readReg_effect .status s
    refine ⟨pollStatus s, rfl, ?_, ?_, ?_⟩ <;> rw [hpoll]
    · exact readReg_pend .status s
    · exact hkeep.trans hpolicy
    · exact fun l hl => by simpa using hl
  | reset => exact absurd rfl hreset

/-- On such a platform a step before the completion passes one host turn, or resets the block. -/
theorem step_goes_on {s : State} {k : Kind} {S : Snapshot} {m : Nat} (hpend : s.pend = some ⟨k, S, m + 1⟩)
    (hpolicy : s.policy = .records) :
    ∃ t, step s = .next t ∧
      ((.reset ∈ s.host ∧ t.pend = none) ∨
       (t.pend = some ⟨k, S, m⟩ ∧ t.policy = .records ∧ (.reset ∉ s.host → .reset ∉ t.host))) := by
  have hdue := not_engineDue_of_turns hpend
  cases hhost : s.host with
  | nil =>
    refine ⟨_, step_of_host_nil hdue hhost, .inr ⟨State.afterTake_pend hpend [], hpolicy, id⟩⟩
  | cons op rest =>
    rw [step_eq_performLine hdue hhost]
    by_cases hop : op = .reset
    · subst hop
      exact ⟨_, rfl, .inl ⟨List.mem_cons_self, rfl⟩⟩
    have hbusy : (s.afterTake rest).busy = true := by
      rw [(s.sameBlock_afterTake rest).busy_eq, State.busy, hpend]
      rfl
    obtain ⟨t, ht, hp, hpol, hlines⟩ := performLine_goes_on (run := exec) hop hbusy hpolicy
    refine ⟨t, ht, .inr ⟨hp.trans (State.afterTake_pend hpend rest), hpol, fun hno hin => hno ?_⟩⟩
    obtain heq | hin := hlines _ hin
    · exact absurd heq.symm hop
    · exact List.mem_cons_of_mem op hin

/-- Settles O57: by induction on the host turns before the completion. -/
theorem completionIsTaken : Obligations.CompletionIsTaken := by
  unfold Obligations.CompletionIsTaken
  rintro s ⟨k, S, m⟩ hpend hpolicy
  induction m generalizing s with
  | zero => exact ⟨1, _, le_rfl, (run_one s).trans (step_due hpend), rfl, fun _ => rfl⟩
  | succ m ih =>
    obtain ⟨u, hstep, ⟨hreset, hidle⟩ | ⟨hpend', hpolicy', hlines⟩⟩ := step_goes_on hpend hpolicy
    · exact ⟨1, u, by simp, (run_one s).trans hstep, hidle, fun hno => absurd hreset hno⟩
    · obtain ⟨j, t, hj, hrun, hidle, hdone⟩ := ih u hpend' hpolicy'
      exact ⟨j + 1, t, Nat.succ_le_succ hj, (run_succ hstep).trans hrun, hidle, fun hno => hdone (hlines hno)⟩

end Sys2Proof.Machine
end

section
/-! PROOFS. Infinities, zeros and NaNs in the binary64 operations (spec 00_scope.md rules R11, R15). -/

namespace Sys2Proof.Machine

/-! ### The classes of negated and of special encodings -/

@[simp] theorem F64.isNaN_neg (x : Binary64) : F64.isNaN (F64.neg x) = F64.isNaN x := by simp [F64.isNaN]

@[simp] theorem F64.isInf_neg (x : Binary64) : F64.isInf (F64.neg x) = F64.isInf x := by simp [F64.isInf]

@[simp] theorem F64.isZero_neg (x : Binary64) : F64.isZero (F64.neg x) = F64.isZero x := by simp [F64.isZero]

@[simp] theorem F64.isFinite_neg (x : Binary64) : F64.isFinite (F64.neg x) = F64.isFinite x := by simp [F64.isFinite]

@[simp] theorem F64.isInf_ofParts_infBits (neg : Bool) : F64.isInf (F64.ofParts neg F64.infBits) = true := by
  rw [F64.isInf, F64.expo_ofParts neg (by decide), F64.frac_ofParts neg (by decide)]
  decide

@[simp] theorem F64.isZero_ofParts_zero (neg : Bool) : F64.isZero (F64.ofParts neg 0) = true := by
  rw [F64.isZero, F64.expo_ofParts neg (by decide), F64.frac_ofParts neg (by decide)]
  decide

theorem F64.isFinite_of_isZero {x : Binary64} (h : F64.isZero x = true) : F64.isFinite x = true := by
  simp only [F64.isZero, Bool.and_eq_true, beq_iff_eq] at h
  simp [F64.isFinite, h]

theorem F64.isNaN_eq_false_of_isZero {x : Binary64} (h : F64.isZero x = true) : F64.isNaN x = false :=
  F64.isNaN_eq_false_of_isFinite (F64.isFinite_of_isZero h)

theorem F64.isInf_eq_false_of_isZero {x : Binary64} (h : F64.isZero x = true) : F64.isInf x = false :=
  F64.isInf_eq_false_of_isFinite (F64.isFinite_of_isZero h)

/-! ### Two infinities -/

section infinities
variable {x y : Binary64} (hx : F64.isInf x = true) (hy : F64.isInf y = true)
include hx hy

theorem F64.add_inf_inf : F64.add x y = if F64.sign x = F64.sign y then some x else none := by
  simp [F64.add, F64.isNaN_eq_false_of_isInf, hx, hy]

theorem F64.mul_inf_inf : F64.mul x y = some (F64.ofParts (F64.sign x != F64.sign y) F64.infBits) := by
  simp [F64.mul, F64.isNaN_eq_false_of_isInf, F64.isZero_eq_false_of_isInf, hx, hy]

theorem F64.div_inf_inf : F64.div x y = none := by
  simp [F64.div, F64.isNaN_eq_false_of_isInf, hx, hy]

end infinities

theorem F64.sub_inf_inf {x y : Binary64} (hx : F64.isInf x = true) (hy : F64.isInf y = true) :
    F64.sub x y = if F64.sign x = F64.sign y then none else some x := by
  rw [F64.sub, F64.add_inf_inf hx (by simpa using hy), F64.sign_neg]
  cases F64.sign x <;> cases F64.sign y <;> rfl

/-! ### An infinity and a finite value -/

section infinity_and_finite
variable {x y : Binary64} (hx : F64.isInf x = true) (hy : F64.isFinite y = true)
include hx hy

theorem F64.add_inf_finite : F64.add x y = some x := by
  simp [F64.add, F64.isNaN_eq_false_of_isInf, F64.isNaN_eq_false_of_isFinite, F64.isInf_eq_false_of_isFinite, hx, hy]

theorem F64.add_finite_inf : F64.add y x = some x := by
  simp [F64.add, F64.isNaN_eq_false_of_isInf, F64.isNaN_eq_false_of_isFinite, F64.isInf_eq_false_of_isFinite, hx, hy]

theorem F64.mul_inf_finite : F64.mul x y =
    if F64.isZero y then none else some (F64.ofParts (F64.sign x != F64.sign y) F64.infBits) := by
  simp [F64.mul, F64.isNaN_eq_false_of_isInf, F64.isNaN_eq_false_of_isFinite, F64.isZero_eq_false_of_isInf, hx, hy]

theorem F64.mul_finite_inf : F64.mul y x =
    if F64.isZero y then none else some (F64.ofParts (F64.sign x != F64.sign y) F64.infBits) := by
  simp [F64.mul, F64.isNaN_eq_false_of_isInf, F64.isNaN_eq_false_of_isFinite, F64.isZero_eq_false_of_isInf, hx, hy,
    bne_comm]

theorem F64.div_inf_finite : F64.div x y = some (F64.ofParts (F64.sign x != F64.sign y) F64.infBits) := by
  simp [F64.div, F64.isNaN_eq_false_of_isInf, F64.isNaN_eq_false_of_isFinite, F64.isInf_eq_false_of_isFinite, hx, hy]

theorem F64.div_finite_inf : F64.div y x = some (F64.ofParts (F64.sign y != F64.sign x) 0) := by
  simp [F64.div, F64.isNaN_eq_false_of_isInf, F64.isNaN_eq_false_of_isFinite, F64.isInf_eq_false_of_isFinite, hx, hy]

end infinity_and_finite

/-! ### Zeros -/

theorem F64.div_by_zero {x y : Binary64} (hx : F64.isFinite x = true) (hy : F64.isZero y = true) :
    F64.div x y = if F64.isZero x then none else some (F64.ofParts (F64.sign x != F64.sign y) F64.infBits) := by
  simp [F64.div, F64.isNaN_eq_false_of_isFinite, F64.isInf_eq_false_of_isFinite, F64.isFinite_of_isZero, hx, hy]

theorem F64.sqrt_of_isZero {x : Binary64} (h : F64.isZero x = true) : F64.sqrt x = some x := by
  simp [F64.sqrt, F64.isNaN_eq_false_of_isZero, h]

theorem F64.sqrt_of_negative {x : Binary64} (hnan : F64.isNaN x = false) (hzero : F64.isZero x = false)
    (hsign : F64.sign x = true) : F64.sqrt x = none := by
  simp [F64.sqrt, hnan, hzero, hsign]

theorem F64.sqrt_of_inf {x : Binary64} (hinf : F64.isInf x = true) (hsign : F64.sign x = false) :
    F64.sqrt x = some x := by
  simp [F64.sqrt, F64.isNaN_eq_false_of_isInf, F64.isZero_eq_false_of_isInf, hinf, hsign]

/-- Settles O41: class by class of the operands. -/
theorem specialValues : Obligations.SpecialValues := by
  unfold Obligations.SpecialValues
  intro x y
  have infinity (neg : Bool) : ∃ r, some (F64.ofParts neg F64.infBits) = some r ∧ F64.isInf r = true ∧ F64.sign r = neg :=
    ⟨_, rfl, F64.isInf_ofParts_infBits neg, F64.sign_ofParts neg _⟩
  refine ⟨fun hnan => ?_, F64.sqrt_nan, fun hx hy => ?_, fun hx hy => ?_, fun hx hy => ?_, fun hx hnz hy => ?_,
    F64.sqrt_of_isZero, F64.sqrt_of_negative, F64.sqrt_of_inf⟩
  · rcases hnan with h | h
    · exact ⟨F64.add_nan_left h y, F64.add_nan_left h _, F64.mul_nan_left h y, F64.div_nan_left h y⟩
    · exact ⟨F64.add_nan_right x h, F64.add_nan_right x (by simpa using h), F64.mul_nan_right x h, F64.div_nan_right x h⟩
  · exact ⟨F64.add_inf_inf hx hy, F64.sub_inf_inf hx hy, F64.mul_inf_inf hx hy ▸ infinity _, F64.div_inf_inf hx hy⟩
  · refine ⟨F64.add_inf_finite hx hy, F64.add_finite_inf hx hy, F64.add_inf_finite hx (by simpa using hy),
      F64.add_finite_inf (by simpa using hx) hy, fun hzero => ?_, fun hzero => ?_,
      F64.div_inf_finite hx hy ▸ infinity _, ?_⟩
    · simp [F64.mul_inf_finite hx hy, F64.mul_finite_inf hx hy, hzero]
    · simp [F64.mul_inf_finite hx hy, F64.mul_finite_inf hx hy, hzero]
    · simp [F64.div_finite_inf hx hy, bne_comm]
  · simp [F64.div_by_zero (F64.isFinite_of_isZero hx) hy, hx]
  · simp [F64.div_by_zero hx hy, hnz]

/-! ### Scaling below the bound of overflow (spec 41_quantize_pack.md rule R121) -/

/-- Settles O43: the scaled value is exact, and the quantizer masks its floor. -/
theorem scalingIsExact : Obligations.ScalingIsExact := by
  unfold Obligations.ScalingIsExact
  exact fun P x hfin hlt => ⟨F64.mul_scale_exact hfin hlt, quantize_of_mag_lt P hfin hlt⟩

end Sys2Proof.Machine
end

section
/-! PROOFS. Addition, multiplication and division are correctly rounded (spec 00_scope.md rule R15). -/

namespace Sys2Proof.Machine

/-! ### Rounding to an integer is nearest, ties to even -/

/-- A tie is rounded to an even integer. -/
theorem roundNearestEven_even_of_tie {n d : Nat} (hd : 0 < d)
    (h : 2 * ((roundNearestEven n d * d : Nat) - n : Int).natAbs = d) : roundNearestEven n d % 2 = 0 := by
  have hdiv := Nat.div_add_mod' n d
  have hmod := Nat.mod_lt n hd
  unfold roundNearestEven at h ⊢
  split
  · next hup =>
    rw [if_pos hup, Nat.add_mul, Nat.one_mul] at h
    omega
  · next hdown =>
    rw [if_neg hdown] at h
    omega

/-- No integer is nearer to `n / d`, and another one as near leaves an even result. -/
theorem roundNearestEven_nearest {n d : Nat} (hd : 0 < d) (k : Int) :
    ((roundNearestEven n d * d : Nat) - n : Int).natAbs ≤ (k * d - n).natAbs ∧
    (((roundNearestEven n d * d : Nat) - n : Int).natAbs = (k * d - n).natAbs → k ≠ roundNearestEven n d →
      roundNearestEven n d % 2 = 0) := by
  obtain ⟨hlow, hhigh⟩ := roundNearestEven_bounds n d hd
  have hhalf : 2 * ((roundNearestEven n d * d : Nat) - n : Int).natAbs ≤ d := by
    rw [Nat.add_mul, Nat.mul_assoc] at hlow
    omega
  by_cases hk : k = roundNearestEven n d
  · subst hk
    exact ⟨by rw [Nat.cast_mul], fun _ hne => absurd rfl hne⟩
  · have hfar : d ≤ (k * d - (roundNearestEven n d * d : Nat)).natAbs := by
      rw [Nat.cast_mul, ← Int.sub_mul, Int.natAbs_mul, Int.natAbs_natCast]
      exact Nat.le_mul_of_pos_left d (Int.natAbs_pos.mpr (sub_ne_zero.mpr hk))
    refine ⟨by omega, fun heq _ => roundNearestEven_even_of_tie hd (by omega)⟩

/-! ### The values that a quantum leaves out -/

/-- A value is a whole number of quanta, or below `2 ^ 52` of them. -/
theorem F64.units_dvd_or_lt (t : Nat) (z : Binary64) :
    (2 ^ t : Int) ∣ F64.units z ∨ (F64.units z).natAbs < 2 ^ 52 * 2 ^ t ∧ t ≠ 0 := by
  obtain ⟨c, e, hc, hmag⟩ := F64.mag_eq_significand z
  rcases Nat.lt_or_ge e t with het | hte
  · refine .inr ⟨?_, by omega⟩
    rw [F64.natAbs_units, hmag]
    calc c * 2 ^ e < 2 ^ 53 * 2 ^ e := Nat.mul_lt_mul_of_pos_right hc (Nat.two_pow_pos e)
      _ = 2 ^ 52 * 2 ^ (e + 1) := by rw [pow_succ 2 52, pow_succ 2 e]; ring
      _ ≤ 2 ^ 52 * 2 ^ t := Nat.mul_le_mul_left _ (Nat.pow_le_pow_right (by decide) het)
  · left
    rw [← Int.natAbs_dvd_natAbs, F64.natAbs_units, hmag, Int.natAbs_pow]
    exact Dvd.dvd.mul_left (pow_dvd_pow 2 hte) c

/-- `n / d`, when it is at least `2 ^ 52` quanta of `2 ^ t`, is rounded to one of the nearest values among the whole numbers
of quanta and the values below `2 ^ 52` of them; a tie goes to an even number of quanta. -/
theorem roundNearestEven_quanta_nearest {n d t : Nat} (hd : 0 < d) (hfull : t = 0 ∨ 2 ^ 52 * 2 ^ t * d ≤ n) {z : Int}
    (hz : (2 ^ t : Int) ∣ z ∨ z.natAbs < 2 ^ 52 * 2 ^ t ∧ t ≠ 0) :
    (((roundNearestEven n (d * 2 ^ t) * 2 ^ t : Nat) * d - n : Int)).natAbs ≤ (z * d - n).natAbs ∧
    (((roundNearestEven n (d * 2 ^ t) * 2 ^ t : Nat) * d - n : Int).natAbs = (z * d - n).natAbs →
      z ≠ (roundNearestEven n (d * 2 ^ t) * 2 ^ t : Nat) → roundNearestEven n (d * 2 ^ t) % 2 = 0) := by
  have hquantum : 0 < d * 2 ^ t := Nat.mul_pos hd (Nat.two_pow_pos t)
  have hres : (((roundNearestEven n (d * 2 ^ t) * 2 ^ t : Nat) : Int) * d - n) =
      ((roundNearestEven n (d * 2 ^ t) * (d * 2 ^ t) : Nat) - n : Int) := by
    push_cast
    ring
  rw [hres]
  rcases hz with ⟨k, rfl⟩ | ⟨hlt, ht⟩
  · obtain ⟨hle, htie⟩ := roundNearestEven_nearest (n := n) hquantum k
    have hk : (2 ^ t * k * d - n : Int) = k * (d * 2 ^ t : Nat) - n := by push_cast; ring
    rw [hk]
    refine ⟨hle, fun heq hne => htie heq ?_⟩
    rintro rfl
    exact hne (by push_cast; ring)
  · obtain ⟨hle, -⟩ := roundNearestEven_nearest (n := n) hquantum (2 ^ 52)
    have hfull' := hfull.resolve_left ht
    have hzd : (z * d).natAbs < 2 ^ 52 * 2 ^ t * d := by
      rw [Int.natAbs_mul, Int.natAbs_natCast]
      exact Nat.mul_lt_mul_of_pos_right hlt hd
    have hgrid : (2 ^ 52 * (d * 2 ^ t : Nat) : Int) = (2 ^ 52 * 2 ^ t * d : Nat) := by push_cast; ring
    rw [hgrid] at hle
    generalize 2 ^ 52 * 2 ^ t * d = g at *
    generalize roundNearestEven n (d * 2 ^ t) * (d * 2 ^ t) = m at *
    have hstrict : ((m : Int) - n).natAbs < (z * d - n).natAbs := by omega
    exact ⟨hstrict.le, fun heq => absurd heq hstrict.ne⟩

/-! ### The quantum and the significand of a rounding -/

/-- The power of two that is the quantum of `n / d` units. -/
def F64.quantum (n d : Nat) : Nat := Nat.log2 (n / d) - 52

/-- The number of quanta that `n / d` units is rounded to. -/
def F64.quanta (n d : Nat) : Nat := roundNearestEven n (d * 2 ^ F64.quantum n d)

theorem F64.roundBits_eq_min (n d : Nat) :
    F64.roundBits n d = min (F64.quantum n d * 2 ^ 52 + F64.quanta n d) F64.infBits := rfl

section quanta
variable {n d : Nat}

theorem F64.quanta_le : F64.quanta n d ≤ 2 ^ 53 := by
  have hlt := significand_lt (n / d)
  have hcases := roundNearestEven_cases n (d * 2 ^ F64.quantum n d)
  rw [← Nat.div_div_eq_div_mul] at hcases
  unfold F64.quanta
  rcases hcases with h | h <;> rw [h] <;> unfold F64.quantum <;> omega

/-- A quantum of more than one unit leaves a significand of 53 bits. -/
theorem F64.quantum_full : F64.quantum n d = 0 ∨ 2 ^ 52 * 2 ^ F64.quantum n d * d ≤ n := by
  rcases Nat.eq_zero_or_pos (F64.quantum n d) with h | h
  · exact .inl h
  right
  have hsig : 2 ^ 52 ≤ n / d / 2 ^ F64.quantum n d := le_significand (by unfold F64.quantum at h; omega)
  rw [Nat.le_div_iff_mul_le (Nat.two_pow_pos _)] at hsig
  exact (Nat.mul_le_mul_right d hsig).trans (Nat.div_mul_le_self n d)

theorem F64.quanta_full (hd : 0 < d) : F64.quantum n d = 0 ∨ 2 ^ 52 ≤ F64.quanta n d := by
  refine F64.quantum_full.imp_right fun h => le_trans ?_ (div_le_roundNearestEven n (d * 2 ^ F64.quantum n d))
  rw [Nat.le_div_iff_mul_le (Nat.mul_pos hd (Nat.two_pow_pos _)), ← Nat.mul_assoc, Nat.mul_right_comm]
  exact h

theorem F64.quanta_bounds (hd : 0 < d) :
    2 * n ≤ (2 * F64.quanta n d + 1) * (d * 2 ^ F64.quantum n d) ∧
    2 * (F64.quanta n d * (d * 2 ^ F64.quantum n d)) ≤ 2 * n + d * 2 ^ F64.quantum n d :=
  roundNearestEven_bounds n _ (Nat.mul_pos hd (Nat.two_pow_pos _))

end quanta

/-! ### Overflow -/

/-- An odd result is no tie. -/
theorem two_mul_lt_of_roundNearestEven_odd {n d : Nat} (hd : 0 < d) (h : roundNearestEven n d % 2 = 1) :
    2 * n < (2 * roundNearestEven n d + 1) * d := by
  obtain ⟨hlow, -⟩ := roundNearestEven_bounds n d hd
  have htie := mt (roundNearestEven_even_of_tie (n := n) hd) (by omega)
  rw [Nat.add_mul, Nat.mul_assoc] at hlow ⊢
  omega

theorem F64.two_mul_overflowUnits : 2 * F64.overflowUnits = (2 ^ 54 - 1) * 2 ^ 2045 := by
  rw [F64.overflowUnits, Nat.mul_left_comm, ← pow_succ']

theorem F64.overflowUnits_pos : 0 < F64.overflowUnits := by
  unfold F64.overflowUnits
  positivity

/-- The upper end of what rounds to a finite result lies at the bound of overflow or, for an even one, below it. -/
theorem F64.finite_end_le {t c : Nat} (hc : c ≤ 2 ^ 53) (hfull : t = 0 ∨ 2 ^ 52 ≤ c)
    (h : t * 2 ^ 52 + c < F64.infBits) :
    (2 * c + 1) * 2 ^ t ≤ 2 * F64.overflowUnits ∧ (c % 2 = 0 → (2 * c + 1) * 2 ^ t < 2 * F64.overflowUnits) := by
  rw [F64.infBits] at h
  rw [F64.two_mul_overflowUnits]
  rcases Nat.lt_or_ge t 2045 with ht | ht
  · have hlt : (2 * c + 1) * 2 ^ t < (2 ^ 54 - 1) * 2 ^ 2045 := by
      calc (2 * c + 1) * 2 ^ t ≤ (2 * c + 1) * 2 ^ 2044 :=
            Nat.mul_le_mul_left _ (Nat.pow_le_pow_right (by decide) (by omega))
        _ < (2 ^ 54 - 1) * 2 * 2 ^ 2044 := Nat.mul_lt_mul_of_pos_right (by omega) (Nat.two_pow_pos _)
        _ = (2 ^ 54 - 1) * 2 ^ 2045 := by rw [Nat.mul_assoc, ← pow_succ']
    exact ⟨hlt.le, fun _ => hlt⟩
  · obtain rfl : t = 2045 := by omega
    exact ⟨Nat.mul_le_mul_right _ (by omega),
      fun heven => Nat.mul_lt_mul_of_pos_right (by omega) (Nat.two_pow_pos _)⟩

/-- Rounding up to `2 ^ 53` quanta takes a magnitude from half a quantum below on. -/
theorem le_of_half_quantum {o c q n : Nat} (hc : 2 ^ 53 * q ≤ c) (hn : 2 * c ≤ 2 * n + q)
    (ho : 2 * o = (2 ^ 54 - 1) * q) : o ≤ n := by
  norm_num at ho
  linarith

section overflow
variable {n d : Nat} (hd : 0 < d)
include hd

/-- A finite result is of a magnitude below the bound of overflow. -/
theorem F64.lt_overflow_of_bits_lt (h : F64.quantum n d * 2 ^ 52 + F64.quanta n d < F64.infBits) :
    n < F64.overflowUnits * d := by
  have hpos : 0 < d * 2 ^ F64.quantum n d := Nat.mul_pos hd (Nat.two_pow_pos _)
  obtain ⟨hle, hlt⟩ := F64.finite_end_le F64.quanta_le (F64.quanta_full hd) h
  have hscale : (2 * F64.quanta n d + 1) * (d * 2 ^ F64.quantum n d) =
      (2 * F64.quanta n d + 1) * 2 ^ F64.quantum n d * d := by ring
  suffices 2 * n < 2 * F64.overflowUnits * d by
    rw [Nat.mul_assoc] at this
    exact Nat.lt_of_mul_lt_mul_left this
  rcases Nat.mod_two_eq_zero_or_one (F64.quanta n d) with heven | hodd
  · obtain ⟨hlow, -⟩ := F64.quanta_bounds (n := n) hd
    calc 2 * n ≤ (2 * F64.quanta n d + 1) * (d * 2 ^ F64.quantum n d) := hlow
      _ = (2 * F64.quanta n d + 1) * 2 ^ F64.quantum n d * d := hscale
      _ < 2 * F64.overflowUnits * d := Nat.mul_lt_mul_of_pos_right (hlt heven) hd
  · calc 2 * n < (2 * F64.quanta n d + 1) * (d * 2 ^ F64.quantum n d) :=
          two_mul_lt_of_roundNearestEven_odd hpos hodd
      _ = (2 * F64.quanta n d + 1) * 2 ^ F64.quantum n d * d := hscale
      _ ≤ 2 * F64.overflowUnits * d := Nat.mul_le_mul_right d hle

/-- An infinite result is of a magnitude from the bound of overflow on. -/
theorem F64.overflow_le_of_bits_ge (h : F64.infBits ≤ F64.quantum n d * 2 ^ 52 + F64.quanta n d) :
    F64.overflowUnits * d ≤ n := by
  have hle := F64.quanta_le (n := n) (d := d)
  rw [F64.infBits] at h
  rcases Nat.lt_or_ge 2045 (F64.quantum n d) with ht | ht
  · have hfull := F64.quantum_full.resolve_left (show F64.quantum n d ≠ 0 by omega)
    refine (Nat.mul_le_mul_right d ?_).trans hfull
    calc F64.overflowUnits ≤ 2 ^ 54 * 2 ^ 2044 := Nat.mul_le_mul_right _ (by decide)
      _ = 2 ^ 52 * 2 ^ 2046 := by rw [← pow_add, ← pow_add]
      _ ≤ 2 ^ 52 * 2 ^ F64.quantum n d := Nat.mul_le_mul_left _ (Nat.pow_le_pow_right (by decide) ht)
  · have hquanta : 2 ^ 53 ≤ F64.quanta n d := by omega
    have hquantum : F64.quantum n d = 2045 := by omega
    have hbound : 2 * F64.overflowUnits = (2 ^ 54 - 1) * 2 ^ F64.quantum n d := by
      rw [hquantum, F64.two_mul_overflowUnits]
    obtain ⟨-, hhigh⟩ := F64.quanta_bounds (n := n) hd
    have hmul : 2 ^ 53 * (d * 2 ^ F64.quantum n d) ≤ F64.quanta n d * (d * 2 ^ F64.quantum n d) :=
      Nat.mul_le_mul_right _ hquanta
    have hscale : 2 * (F64.overflowUnits * d) = (2 ^ 54 - 1) * (d * 2 ^ F64.quantum n d) := by
      rw [← Nat.mul_assoc, hbound]
      ring
    exact le_of_half_quantum hmul hhigh hscale

end overflow

/-! ### The rounded value -/

/-- `a` or `-a`. -/
def F64.withSign (neg : Bool) (a : Int) : Int := if neg then -a else a

section withSign
variable (neg : Bool) (a b : Int)

@[simp] theorem F64.withSign_withSign : F64.withSign neg (F64.withSign neg a) = a := by
  cases neg <;> simp [F64.withSign]

@[simp] theorem F64.natAbs_withSign : (F64.withSign neg a).natAbs = a.natAbs := by
  cases neg <;> simp [F64.withSign]

theorem F64.withSign_sub : F64.withSign neg (a - b) = F64.withSign neg a - F64.withSign neg b := by
  cases neg
  · rfl
  · simp only [F64.withSign, if_true]
    ring

theorem F64.withSign_mul : F64.withSign neg (a * b) = F64.withSign neg a * b := by
  cases neg <;> simp [F64.withSign]

theorem F64.dvd_withSign {m a : Int} (h : m ∣ a) : m ∣ F64.withSign neg a := by
  cases neg <;> simpa [F64.withSign] using h

theorem F64.units_eq_withSign (x : Binary64) : F64.units x = F64.withSign (F64.sign x) (F64.mag x) := rfl

/-- The distance from an exact value, in terms of its magnitude. -/
theorem F64.natAbs_sub_withSign (z : Int) (n d : Nat) :
    (z * d - F64.withSign neg n).natAbs = (F64.withSign neg z * d - n).natAbs := by
  rw [← F64.natAbs_withSign neg, F64.withSign_sub, F64.withSign_mul, F64.withSign_withSign]

end withSign

/-- The magnitude of a result; a significand of `2 ^ 53` carries into the exponent. -/
theorem F64.mag_ofParts_of_le (neg : Bool) {c t : Nat} (hc : c ≤ 2 ^ 53) (hfull : t = 0 ∨ 2 ^ 52 ≤ c)
    (h : t * 2 ^ 52 + c < F64.infBits) : F64.mag (F64.ofParts neg (t * 2 ^ 52 + c)) = c * 2 ^ t := by
  rw [F64.infBits] at h
  rcases Nat.lt_or_eq_of_le hc with hlt | rfl
  · exact F64.mag_ofParts neg hlt hfull (by omega)
  · rw [show t * 2 ^ 52 + 2 ^ 53 = (t + 1) * 2 ^ 52 + 2 ^ 52 by omega,
      F64.mag_ofParts neg (by decide) (.inr le_rfl) (by omega), pow_succ 2 t, pow_succ 2 52]
    ring

/-- The lowest bit of an encoding is that of its significand. -/
theorem F64.getLsbD_ofParts_zero (neg : Bool) {c t : Nat} (h : t * 2 ^ 52 + c < F64.infBits) (heven : c % 2 = 0) :
    (F64.ofParts neg (t * 2 ^ 52 + c)).getLsbD 0 = false := by
  rw [F64.infBits] at h
  rw [BitVec.getLsbD, Nat.testBit_zero, F64.ofParts_toNat neg (by omega)]
  exact decide_eq_false (by omega)

/-- `round` rounds to nearest, ties to even, and overflows to an infinity (R15). -/
theorem F64.round_roundsTo (neg : Bool) (n : Nat) {d : Nat} (hd : 0 < d) :
    F64.RoundsTo (F64.withSign neg n) d (F64.round neg n d) := by
  rw [F64.RoundsTo, F64.natAbs_withSign, Int.natAbs_natCast, F64.sign_round, F64.round, F64.roundBits_eq_min]
  rcases Nat.lt_or_ge (F64.quantum n d * 2 ^ 52 + F64.quanta n d) F64.infBits with hfin | hinf
  · left
    rw [Nat.min_eq_left hfin.le]
    have hunits : F64.units (F64.ofParts neg (F64.quantum n d * 2 ^ 52 + F64.quanta n d)) =
        F64.withSign neg (F64.quanta n d * 2 ^ F64.quantum n d : Nat) := by
      rw [F64.units_eq_withSign, F64.sign_ofParts, F64.mag_ofParts_of_le neg F64.quanta_le (F64.quanta_full hd) hfin]
    refine ⟨F64.isFinite_ofParts neg hfin, F64.lt_overflow_of_bits_lt hd hfin, fun z _ => ?_⟩
    have hz := (F64.units_dvd_or_lt (F64.quantum n d) z).imp (F64.dvd_withSign neg)
      (fun hlt => by rwa [F64.natAbs_withSign] : _ → (F64.withSign neg (F64.units z)).natAbs < _ ∧ _)
    obtain ⟨hle, htie⟩ := roundNearestEven_quanta_nearest hd F64.quantum_full hz
    rw [hunits, F64.natAbs_sub_withSign, F64.natAbs_sub_withSign, F64.withSign_withSign]
    refine ⟨hle, fun heq hne => F64.getLsbD_ofParts_zero neg hfin (htie heq ?_)⟩
    intro hsame
    rw [← F64.withSign_withSign neg (F64.units z), hsame] at hne
    exact hne rfl
  · right
    rw [Nat.min_eq_right hinf]
    have hover := F64.overflow_le_of_bits_ge hd hinf
    have hpos : 0 < n := lt_of_lt_of_le (Nat.mul_pos F64.overflowUnits_pos hd) hover
    refine ⟨F64.isInf_ofParts_infBits neg, hover, ?_⟩
    cases neg <;> simp [F64.withSign, hpos]

/-! ### The three operations -/

@[simp] theorem F64.withSign_zero (neg : Bool) : F64.withSign neg 0 = 0 := by cases neg <;> rfl

/-- A product of signed values has the product of the magnitudes and the sign in which they differ. -/
theorem F64.withSign_mul_withSign (neg neg' : Bool) (a b : Int) :
    F64.withSign neg a * F64.withSign neg' b = F64.withSign (neg != neg') (a * b) := by
  cases neg <;> cases neg' <;> simp [F64.withSign]

theorem F64.eq_withSign_natAbs (a : Int) : a = F64.withSign (decide (a < 0)) a.natAbs := by
  rcases lt_or_ge a 0 with h | h
  · rw [decide_eq_true h, F64.withSign, if_pos rfl]
    omega
  · rw [decide_eq_false (not_lt.mpr h), F64.withSign, if_neg Bool.false_ne_true]
    omega

/-- A zero is the rounding of zero. -/
theorem F64.round_zero (neg : Bool) (d : Nat) : F64.round neg 0 d = F64.ofParts neg 0 := by
  have hlog : Nat.log2 0 = 0 := rfl
  simp [F64.round, F64.roundBits, roundNearestEven, hlog]

theorem F64.add_of_finite {x y : Binary64} (hx : F64.isFinite x = true) (hy : F64.isFinite y = true) :
    F64.add x y =
      if F64.units x + F64.units y = 0 then some (F64.ofParts (F64.sign x && F64.sign y) 0)
      else some (F64.round (decide (F64.units x + F64.units y < 0)) (F64.units x + F64.units y).natAbs 1) := by
  simp [F64.add, F64.isNaN_eq_false_of_isFinite, F64.isInf_eq_false_of_isFinite, hx, hy]

/-- Settles O37: a sum other than zero is the rounding of its magnitude with its sign. -/
theorem addRounds : Obligations.AddRounds := by
  unfold Obligations.AddRounds
  intro x y hx hy
  rw [F64.add_of_finite hx hy]
  by_cases hzero : F64.units x + F64.units y = 0
  · have hround := F64.round_roundsTo (F64.sign x && F64.sign y) 0 (d := 1) one_pos
    rw [Nat.cast_zero, F64.withSign_zero, F64.round_zero] at hround
    rw [if_pos hzero, hzero]
    exact ⟨_, rfl, hround, fun _ => F64.sign_ofParts _ 0⟩
  · have hround := F64.round_roundsTo (decide (F64.units x + F64.units y < 0)) (F64.units x + F64.units y).natAbs
      (d := 1) one_pos
    rw [← F64.eq_withSign_natAbs] at hround
    rw [if_neg hzero]
    exact ⟨_, rfl, hround, fun h => absurd h hzero⟩

/-- Settles O38: the product is the rounding of the product of the magnitudes. -/
theorem mulRounds : Obligations.MulRounds := by
  unfold Obligations.MulRounds
  intro x y hx hy
  have hround := F64.round_roundsTo (F64.sign x != F64.sign y) (F64.mag x * F64.mag y) (pow_pos two_pos 1074)
  rw [Nat.cast_mul, ← F64.withSign_mul_withSign, ← F64.units_eq_withSign, ← F64.units_eq_withSign] at hround
  exact ⟨_, F64.mul_of_finite hx hy, hround, F64.sign_round _ _ _⟩

theorem F64.div_of_finite {x y : Binary64} (hx : F64.isFinite x = true) (hy : F64.isFinite y = true)
    (hzero : F64.isZero y = false) :
    F64.div x y = some (F64.round (F64.sign x != F64.sign y) (F64.mag x * 2 ^ 1074) (F64.mag y)) := by
  simp only [F64.div, F64.isNaN_eq_false_of_isFinite, F64.isInf_eq_false_of_isFinite, hx, hy, hzero, Bool.or_self,
    Bool.false_eq_true, if_false]

/-- A finite value that is not zero has a magnitude. -/
theorem F64.mag_pos {x : Binary64} (hzero : F64.isZero x = false) : 0 < F64.mag x := by
  rw [F64.mag]
  split
  · next hexpo =>
    simp only [F64.isZero, hexpo, beq_self_eq_true, Bool.true_and, beq_eq_false_iff_ne] at hzero
    exact Nat.pos_of_ne_zero hzero
  · exact Nat.mul_pos (by omega) (Nat.two_pow_pos _)

/-- The sign of a value that is not zero is that of its encoding. -/
theorem F64.sign_units {x : Binary64} (hzero : F64.isZero x = false) :
    (F64.units x).sign = F64.withSign (F64.sign x) 1 := by
  have hpos : (0 : Int) < F64.mag x := Int.natCast_pos.mpr (F64.mag_pos hzero)
  rw [F64.units_eq_withSign]
  cases F64.sign x <;> simp [F64.withSign, Int.sign_eq_one_of_pos hpos]

/-- Settles O39: the quotient is the rounding of the quotient of the magnitudes. -/
theorem divRounds : Obligations.DivRounds := by
  unfold Obligations.DivRounds
  intro x y hx hy hzero
  have hround := F64.round_roundsTo (F64.sign x != F64.sign y) (F64.mag x * 2 ^ 1074) (F64.mag_pos hzero)
  have hnum : F64.units x * 2 ^ 1074 * (F64.units y).sign =
      F64.withSign (F64.sign x != F64.sign y) (F64.mag x * 2 ^ 1074 : Nat) := by
    rw [F64.sign_units hzero, F64.units_eq_withSign, ← F64.withSign_mul, F64.withSign_mul_withSign, Int.mul_one,
      Nat.cast_mul, Nat.cast_pow, Nat.cast_ofNat]
  rw [hnum]
  exact ⟨_, F64.div_of_finite hx hy hzero, hround, F64.sign_round _ _ _⟩

end Sys2Proof.Machine
end

section
/-! PROOFS. The square root is correctly rounded (spec 00_scope.md rule R15). -/

namespace Sys2Proof.Machine

/-! ### The integer root -/

/-- The search keeps the root between `acc` and `acc + 2 ^ k`. -/
theorem isqrtFrom_spec (m k acc : Nat) (hlow : acc ^ 2 ≤ m) (hhigh : m < (acc + 2 ^ k) ^ 2) :
    isqrtFrom m k acc ^ 2 ≤ m ∧ m < (isqrtFrom m k acc + 1) ^ 2 := by
  induction k generalizing acc with
  | zero => exact ⟨hlow, hhigh⟩
  | succ k ih =>
    rw [isqrtFrom]
    split
    · next hle => exact ih _ (by rwa [pow_two]) (by rwa [Nat.add_assoc, ← Nat.two_mul, ← pow_succ'])
    · next hgt => exact ih _ hlow (by rwa [pow_two, ← Nat.not_le])

/-! ### The rounded root -/

theorem four_pow_eq (t : Nat) : 4 ^ t = (2 ^ t) ^ 2 := by
  rw [← pow_mul, Nat.mul_comm, pow_mul]
  norm_num

/-- `c` is an integer nearest to `sqrt (m / 4 ^ t)`, said by the squares of the two midpoints about it. -/
def NearestRoot (m t c : Nat) : Prop := 4 * m ≤ (2 * c + 1) ^ 2 * 4 ^ t ∧ (2 * c - 1) ^ 2 * 4 ^ t ≤ 4 * m

/-- The rounding of the integer root is its successor or itself, whichever is nearer. -/
theorem roundRoot_nearest {m t r : Nat} (hlow : r ^ 2 * 4 ^ t ≤ m) (hhigh : m < (r + 1) ^ 2 * 4 ^ t) :
    (roundRoot m t r = r ∨ roundRoot m t r = r + 1) ∧ NearestRoot m t (roundRoot m t r) := by
  unfold roundRoot NearestRoot
  split
  · next hup =>
    refine ⟨.inr rfl, ?_, ?_⟩
    · have hsq : (2 * r + 2) ^ 2 ≤ (2 * (r + 1) + 1) ^ 2 := Nat.pow_le_pow_left (by omega) 2
      calc 4 * m ≤ 4 * ((r + 1) ^ 2 * 4 ^ t) := Nat.mul_le_mul_left 4 hhigh.le
        _ = (2 * r + 2) ^ 2 * 4 ^ t := by ring
        _ ≤ (2 * (r + 1) + 1) ^ 2 * 4 ^ t := Nat.mul_le_mul_right _ hsq
    · rw [show 2 * (r + 1) - 1 = 2 * r + 1 by omega]
      rcases hup with h | ⟨h, -⟩
      · exact h.le
      · exact h.le
  · next hdown =>
    refine ⟨.inl rfl, ?_, ?_⟩
    · by_contra hlt
      exact hdown (.inl (Nat.not_le.mp hlt))
    · have hsq : (2 * r - 1) ^ 2 ≤ (2 * r) ^ 2 := Nat.pow_le_pow_left (by omega) 2
      calc (2 * r - 1) ^ 2 * 4 ^ t ≤ (2 * r) ^ 2 * 4 ^ t := Nat.mul_le_mul_right _ hsq
        _ = 4 * (r ^ 2 * 4 ^ t) := by ring
        _ ≤ 4 * m := Nat.mul_le_mul_left 4 hlow

/-- The integer root of `m / 4 ^ t` has 53 bits when `m` has `2 * t + 105` or `2 * t + 106`. -/
theorem isqrt_significand {m t : Nat} (hlow : 2 ^ (2 * t + 104) ≤ m) (hhigh : m < 2 ^ (2 * t + 106)) :
    ∃ r, isqrtFrom (m / 4 ^ t) 54 0 = r ∧ r ^ 2 * 4 ^ t ≤ m ∧ m < (r + 1) ^ 2 * 4 ^ t ∧ 2 ^ 52 ≤ r ∧ r < 2 ^ 53 := by
  have hfour : 4 ^ t = 2 ^ (2 * t) := by rw [four_pow_eq, ← pow_mul, Nat.mul_comm]
  have hpos : 0 < 4 ^ t := pow_pos (by decide) t
  rw [pow_add, ← hfour, Nat.mul_comm] at hlow hhigh
  have hge : 2 ^ 104 ≤ m / 4 ^ t := (Nat.le_div_iff_mul_le hpos).mpr hlow
  have hlt : m / 4 ^ t < 2 ^ 106 := (Nat.div_lt_iff_lt_mul hpos).mpr hhigh
  obtain ⟨hsq, hsq'⟩ := isqrtFrom_spec (m / 4 ^ t) 54 0 (Nat.zero_le _) (hlt.trans (by decide))
  refine ⟨_, rfl, (Nat.le_div_iff_mul_le hpos).mp hsq, (Nat.div_lt_iff_lt_mul hpos).mp hsq', ?_, ?_⟩
  · have h : (2 ^ 52) ^ 2 < (isqrtFrom (m / 4 ^ t) 54 0 + 1) ^ 2 := lt_of_le_of_lt hge hsq'
    exact Nat.lt_succ_iff.mp (lt_of_pow_lt_pow_left₀ 2 (Nat.zero_le _) h)
  · have h : isqrtFrom (m / 4 ^ t) 54 0 ^ 2 < (2 ^ 53) ^ 2 := lt_of_le_of_lt hsq hlt
    exact lt_of_pow_lt_pow_left₀ 2 (Nat.zero_le _) h

/-- The encoding of the root of `m` units: its quantum, its significand, and the integer root that was rounded. -/
theorem F64.sqrtBits_spec {m : Nat} (h : 104 ≤ Nat.log2 m) :
    ∃ t c r, F64.sqrtBits m = t * 2 ^ 52 + c ∧ t = Nat.log2 m / 2 - 52 ∧ NearestRoot m t c ∧ (c = r ∨ c = r + 1) ∧
      2 ^ 52 ≤ r ∧ r < 2 ^ 53 ∧ r ^ 2 * 4 ^ t ≤ m := by
  have hm : m ≠ 0 := by
    rintro rfl
    exact absurd h (by decide)
  have hlow : 2 ^ (2 * (Nat.log2 m / 2 - 52) + 104) ≤ m :=
    (Nat.pow_le_pow_right (by decide) (by omega)).trans (Nat.log2_self_le hm)
  have hhigh : m < 2 ^ (2 * (Nat.log2 m / 2 - 52) + 106) :=
    Nat.lt_log2_self.trans_le (Nat.pow_le_pow_right (by decide) (by omega))
  obtain ⟨r, hr, hsq, hsq', hge, hlt⟩ := isqrt_significand hlow hhigh
  obtain ⟨hcases, hnear⟩ := roundRoot_nearest hsq hsq'
  exact ⟨_, roundRoot m _ r, r, by rw [F64.sqrtBits, roundSqrt, hr], rfl, hnear, hcases, hge, hlt, hsq⟩

/-! ### No value lies nearer -/

/-- A value above `c` quanta is a whole number of them, so at least `c + 1`. -/
theorem le_mul_of_root_lt {m t c u : Nat} (hnear : NearestRoot m t c) (hc : 2 ^ 52 ≤ c)
    (hu : 2 ^ t ∣ u ∨ u < 2 ^ 52 * 2 ^ t) (h : c * 2 ^ t < u) : 4 * m ≤ (c * 2 ^ t + u) ^ 2 := by
  have hgrid : 2 ^ t ∣ u := hu.resolve_right fun hlt => absurd (h.trans hlt) (Nat.not_lt.mpr (Nat.mul_le_mul_right _ hc))
  obtain ⟨k, rfl⟩ := hgrid
  rw [Nat.mul_comm (2 ^ t) k] at h ⊢
  have hk : c < k := Nat.lt_of_mul_lt_mul_right h
  obtain ⟨hmid, -⟩ := hnear
  calc 4 * m ≤ (2 * c + 1) ^ 2 * 4 ^ t := hmid
    _ = ((2 * c + 1) * 2 ^ t) ^ 2 := by rw [mul_pow, four_pow_eq]
    _ ≤ (c * 2 ^ t + k * 2 ^ t) ^ 2 := by
      rw [← Nat.add_mul]
      exact Nat.pow_le_pow_left (Nat.mul_le_mul_right _ (by omega)) 2

/-- A value below `c` quanta is at most `c - 1` of them, or it is below the integer root, which is then `c`. -/
theorem mul_le_of_lt_root {m t c r u : Nat} (hnear : NearestRoot m t c) (hcr : c = r ∨ c = r + 1) (hr : 2 ^ 52 ≤ r)
    (hsq : r ^ 2 * 4 ^ t ≤ m) (hu : 2 ^ t ∣ u ∨ u < 2 ^ 52 * 2 ^ t) (h : u < c * 2 ^ t) :
    (c * 2 ^ t + u) ^ 2 ≤ 4 * m := by
  have hbelow : u ≤ (c - 1) * 2 ^ t → (c * 2 ^ t + u) ^ 2 ≤ 4 * m := fun hle => by
    obtain ⟨-, hmid⟩ := hnear
    calc (c * 2 ^ t + u) ^ 2 ≤ (c * 2 ^ t + (c - 1) * 2 ^ t) ^ 2 := Nat.pow_le_pow_left (Nat.add_le_add_left hle _) 2
      _ = (2 * c - 1) ^ 2 * 4 ^ t := by rw [← Nat.add_mul, show c + (c - 1) = 2 * c - 1 by omega, mul_pow, four_pow_eq]
      _ ≤ 4 * m := hmid
  rcases hu with ⟨k, rfl⟩ | hlt
  · rw [Nat.mul_comm (2 ^ t) k] at h hbelow ⊢
    have hk : k < c := Nat.lt_of_mul_lt_mul_right h
    exact hbelow (Nat.mul_le_mul_right _ (by omega))
  · have hroot : u ≤ r * 2 ^ t := (hlt.trans_le (Nat.mul_le_mul_right _ hr)).le
    rcases hcr with rfl | rfl
    · calc (c * 2 ^ t + u) ^ 2 ≤ (c * 2 ^ t + c * 2 ^ t) ^ 2 := Nat.pow_le_pow_left (Nat.add_le_add_left hroot _) 2
        _ = 4 * (c ^ 2 * 4 ^ t) := by rw [four_pow_eq]; ring
        _ ≤ 4 * m := Nat.mul_le_mul_left 4 hsq
    · exact hbelow hroot

/-- A magnitude is a whole number of quanta, or below `2 ^ 52` of them. -/
theorem F64.mag_dvd_or_lt (t : Nat) (z : Binary64) : 2 ^ t ∣ F64.mag z ∨ F64.mag z < 2 ^ 52 * 2 ^ t := by
  rw [← F64.natAbs_units]
  refine (F64.units_dvd_or_lt t z).imp (fun hdvd => ?_) And.left
  rw [← Int.natAbs_dvd_natAbs] at hdvd
  simpa [Int.natAbs_pow] using hdvd

theorem F64.units_of_sign_false {x : Binary64} (h : F64.sign x = false) : F64.units x = F64.mag x := by
  simp [F64.units, h]

/-- A finite magnitude is below `2 ^ 1024`. -/
theorem F64.mag_lt {x : Binary64} (hfin : F64.isFinite x = true) : F64.mag x < 2 ^ 2098 := by
  have hfrac : F64.frac x < 2 ^ 52 := (x.extractLsb' 0 52).isLt
  have hexpo : F64.expo x < 2 ^ 11 := (x.extractLsb' 52 11).isLt
  rw [F64.isFinite, bne_iff_ne] at hfin
  rw [F64.mag]
  split
  · exact hfrac.trans_le (pow_le_pow_right₀ (by decide) (by decide))
  · calc (F64.frac x + 2 ^ 52) * 2 ^ (F64.expo x - 1) < 2 ^ 53 * 2 ^ (F64.expo x - 1) :=
          Nat.mul_lt_mul_of_pos_right (by omega) (Nat.two_pow_pos _)
      _ = 2 ^ (53 + (F64.expo x - 1)) := (pow_add _ _ _).symm
      _ ≤ 2 ^ 2098 := Nat.pow_le_pow_right (by decide) (by omega)

theorem F64.sqrt_of_positive {x : Binary64} (hfin : F64.isFinite x = true) (hsign : F64.sign x = false)
    (hzero : F64.isZero x = false) : F64.sqrt x = some (F64.ofParts false (F64.sqrtBits (F64.mag x * 2 ^ 1074))) := by
  simp only [F64.sqrt, F64.isNaN_eq_false_of_isFinite, F64.isInf_eq_false_of_isFinite, hfin, hsign, hzero,
    Bool.false_eq_true, if_false]

/-- A positive value has its sign bit clear and is no zero. -/
theorem F64.positive_of_units_pos {x : Binary64} (h : 0 < F64.units x) :
    F64.sign x = false ∧ F64.isZero x = false ∧ 0 < F64.mag x := by
  rw [F64.units] at h
  split at h
  · omega
  · next hsign =>
    refine ⟨by simpa using hsign, ?_, by omega⟩
    by_contra hzero
    simp only [Bool.not_eq_false, F64.isZero, Bool.and_eq_true, beq_iff_eq] at hzero
    obtain ⟨hexpo, hfrac⟩ := hzero
    rw [F64.mag, if_pos hexpo, hfrac] at h
    omega

/-- Settles O40: the rounded integer root at the quantum of the radicand, against the values on either side. -/
theorem sqrtRounds : Obligations.SqrtRounds := by
  unfold Obligations.SqrtRounds
  intro x hfin hpos
  obtain ⟨hsign, hzero, hmag⟩ := F64.positive_of_units_pos hpos
  have hlow : 0 + 1074 ≤ Nat.log2 (F64.mag x * 2 ^ 1074) := le_log2_mul_two_pow 1074 hmag
  have hhigh : Nat.log2 (F64.mag x * 2 ^ 1074) < 2098 + 1074 := log2_mul_two_pow_lt 1074 (by decide) (F64.mag_lt hfin)
  have hradicand : F64.units x * 2 ^ 1074 = (F64.mag x * 2 ^ 1074 : Nat) := by
    rw [F64.units_of_sign_false hsign, Nat.cast_mul, Nat.cast_pow, Nat.cast_ofNat]
  rw [F64.sqrt_of_positive hfin hsign hzero, hradicand]
  generalize F64.mag x * 2 ^ 1074 = m at *
  obtain ⟨t, c, r, hbits, ht, hnear, hcr, hr, hr', hsq⟩ := F64.sqrtBits_spec (m := m) (by omega)
  have hfinite : t * 2 ^ 52 + c < F64.infBits := by
    rw [F64.infBits]
    omega
  have hroot : F64.units (F64.ofParts false (t * 2 ^ 52 + c)) = (c * 2 ^ t : Nat) := by
    rw [F64.units_of_sign_false (F64.sign_ofParts _ _), F64.mag_ofParts_of_le _ (by omega) (by omega) hfinite]
  rw [hbits]
  refine ⟨_, rfl, F64.isFinite_ofParts _ hfinite, F64.sign_ofParts _ _, fun z _ hz => ?_⟩
  rw [hroot, F64.units_of_sign_false hz]
  have hgrid := F64.mag_dvd_or_lt t z
  refine ⟨fun h => ?_, fun h => ?_⟩
  · exact_mod_cast le_mul_of_root_lt hnear (by omega) hgrid (Int.ofNat_lt.mp h)
  · exact_mod_cast mul_le_of_lt_root hnear hcr hr hsq hgrid (Int.ofNat_lt.mp h)

end Sys2Proof.Machine
end

section
/-! PROOFS. Exact results: a finite value rounds to itself, quotients of equal values, halving and doubling (spec
00_scope.md rule R15). -/

namespace Sys2Proof.Machine

/-! ### An encoding is its parts -/

/-- The sign, the exponent and the fraction make up the encoding. -/
theorem F64.ofParts_sign_fields (x : Binary64) :
    F64.ofParts (F64.sign x) (F64.expo x * 2 ^ 52 + F64.frac x) = x := by
  have hexpo : F64.expo x = x.toNat / 2 ^ 52 % 2 ^ 11 := by
    rw [F64.expo, BitVec.extractLsb'_toNat, Nat.shiftRight_eq_div_pow]
  have hfrac : F64.frac x = x.toNat % 2 ^ 52 := by
    rw [F64.frac, BitVec.extractLsb'_toNat, Nat.shiftRight_zero]
  have hsign : (F64.sign x).toNat = x.toNat / 2 ^ 63 := by
    have hlt : x.toNat / 2 ^ 63 < 2 := Nat.div_lt_of_lt_mul x.isLt
    rw [F64.sign, BitVec.getLsbD, Nat.testBit_eq_decide_div_mod_eq, Nat.mod_eq_of_lt hlt]
    rcases (show x.toNat / 2 ^ 63 = 0 ∨ x.toNat / 2 ^ 63 = 1 by omega) with h | h <;> rw [h] <;> rfl
  apply BitVec.eq_of_toNat_eq
  rw [F64.ofParts_toNat _ (by omega), hsign, hexpo, hfrac]
  omega

theorem F64.eq_ofParts_of_isInf {x : Binary64} (h : F64.isInf x = true) : x = F64.ofParts (F64.sign x) F64.infBits := by
  simp only [F64.isInf, Bool.and_eq_true, beq_iff_eq] at h
  obtain ⟨hexpo, hfrac⟩ := h
  have hparts := F64.ofParts_sign_fields x
  rw [hexpo, hfrac] at hparts
  exact hparts.symm

theorem F64.neg_ofParts (neg : Bool) {bits : Nat} (h : bits < 2 ^ 63) :
    F64.neg (F64.ofParts neg bits) = F64.ofParts (!neg) bits := by
  have hparts := F64.ofParts_sign_fields (F64.neg (F64.ofParts neg bits))
  rw [F64.sign_neg, F64.expo_neg, F64.frac_neg, F64.sign_ofParts, F64.expo_ofParts neg h, F64.frac_ofParts neg h,
    Nat.div_add_mod'] at hparts
  exact hparts.symm

@[simp] theorem F64.neg_neg (x : Binary64) : F64.neg (F64.neg x) = x := by
  rw [F64.neg, F64.neg, BitVec.xor_assoc, BitVec.xor_self, BitVec.xor_zero]

theorem F64.neg_round (neg : Bool) (n d : Nat) : F64.neg (F64.round neg n d) = F64.round (!neg) n d :=
  F64.neg_ofParts neg (lt_of_le_of_lt (F64.roundBits_le n d) (by decide))

/-! ### A finite value rounds to itself -/

/-- The quantum and the significand that the fields hold. -/
theorem F64.fields_eq_quanta (x : Binary64) :
    ∃ t c, F64.expo x * 2 ^ 52 + F64.frac x = t * 2 ^ 52 + c ∧ F64.mag x = c * 2 ^ t ∧ c < 2 ^ 53 ∧
      (t = 0 ∨ 2 ^ 52 ≤ c) := by
  have hfrac : F64.frac x < 2 ^ 52 := (x.extractLsb' 0 52).isLt
  rcases Nat.eq_zero_or_pos (F64.expo x) with hexpo | hexpo
  · exact ⟨0, F64.frac x, by omega, by rw [F64.mag, if_pos hexpo, pow_zero, Nat.mul_one], by omega, .inl rfl⟩
  · exact ⟨F64.expo x - 1, F64.frac x + 2 ^ 52, by omega, by rw [F64.mag, if_neg hexpo.ne'], by omega, .inr (by omega)⟩

/-- The quantum of a magnitude that is given by its significand. -/
theorem log2_significand {t c : Nat} (hc : c < 2 ^ 53) (hfull : t = 0 ∨ 2 ^ 52 ≤ c) : Nat.log2 (c * 2 ^ t) - 52 = t := by
  have hlt := log2_mul_two_pow_lt t (by decide) hc
  rcases hfull with rfl | hfull
  · omega
  · have hge := le_log2_mul_two_pow t hfull
    omega

/-- A finite value is its own rounding. -/
theorem F64.round_mag {x : Binary64} (hx : F64.isFinite x = true) {d : Nat} (hd : 0 < d) :
    F64.round (F64.sign x) (F64.mag x * d) d = x := by
  obtain ⟨t, c, hbits, hmag, hc, hfull⟩ := F64.fields_eq_quanta x
  have hquantum := log2_significand hc hfull
  have hexpo : F64.expo x < 2 ^ 11 := (x.extractLsb' 52 11).isLt
  have hfrac : F64.frac x < 2 ^ 52 := (x.extractLsb' 0 52).isLt
  rw [F64.isFinite, bne_iff_ne] at hx
  have hle : t * 2 ^ 52 + c ≤ F64.infBits := by
    rw [F64.infBits]
    omega
  rw [F64.round, hmag, F64.roundBits_of_dvd hd (by rw [hquantum]; exact Nat.dvd_mul_left _ _), hquantum,
    Nat.mul_div_cancel _ (Nat.two_pow_pos t), Nat.min_eq_left hle, ← hbits, F64.ofParts_sign_fields]

/-! ### A quotient of equal values -/

theorem F64.mag_one : F64.mag F64.one = 2 ^ 1074 := by
  have hexpo : F64.expo F64.one = 1023 := by decide
  have hfrac : F64.frac F64.one = 0 := by decide
  rw [F64.mag, hexpo, hfrac, if_neg (by decide), Nat.zero_add, ← pow_add]

/-- A finite value other than zero, divided by itself, is 1.0. -/
theorem F64.div_self {x : Binary64} (hx : F64.isFinite x = true) (hzero : F64.isZero x = false) :
    F64.div x x = some F64.one := by
  have hone := F64.round_mag (x := F64.one) (by decide) (F64.mag_pos hzero)
  rw [show F64.sign F64.one = false by decide, F64.mag_one] at hone
  rw [F64.div_of_finite hx hx hzero, bne_self_eq_false, Nat.mul_comm, hone]

/-! ### Halving and doubling -/

/-- Half the magnitude is a significand of 53 bits at a power of two. -/
def F64.Halvable (x : Binary64) : Prop := ∃ c e, c < 2 ^ 53 ∧ F64.mag x = 2 * (c * 2 ^ e)

theorem F64.mag_two : F64.mag F64.two = 2 * 2 ^ 1074 := by
  have hexpo : F64.expo F64.two = 1024 := by decide
  have hfrac : F64.frac F64.two = 0 := by decide
  rw [F64.mag, hexpo, hfrac, if_neg (by decide), Nat.zero_add, ← pow_add, ← pow_succ']

theorem F64.minusTwo_eq_neg : F64.minusTwo = F64.neg F64.two := by decide

/-- The half of a halvable value is exact. -/
theorem F64.div_two_of_halvable {x : Binary64} (hx : F64.isFinite x = true) (h : F64.Halvable x) :
    ∃ y, F64.div x F64.two = some y ∧ F64.isFinite y = true ∧ F64.sign y = F64.sign x ∧ F64.mag x = 2 * F64.mag y := by
  obtain ⟨c, e, hc, hmag⟩ := h
  have hlog : Nat.log2 (c * 2 ^ e) < 2098 := by
    have hlt : c * 2 ^ e < 2 ^ 2098 := lt_of_le_of_lt (by omega) (F64.mag_lt hx)
    rw [Nat.log2_eq_log_two]
    exact Nat.log_lt_of_lt_pow' (by decide) hlt
  have htwo : 0 < F64.mag F64.two := F64.mag_pos (by decide)
  obtain ⟨hfin, hhalf⟩ := F64.round_of_dvd (F64.sign x) htwo (quantum_dvd e hc) hlog
  refine ⟨_, ?_, hfin, F64.sign_round _ _ _, by rw [hhalf, hmag]⟩
  have hnum : F64.mag x * 2 ^ 1074 = c * 2 ^ e * F64.mag F64.two := by
    rw [hmag, F64.mag_two]
    ring
  rw [F64.div_of_finite hx (by decide) (by decide), show F64.sign F64.two = false by decide, Bool.bne_false, hnum]

/-- Twice a value whose double is a finite value. -/
theorem F64.mul_two_of_half {x y : Binary64} (hx : F64.isFinite x = true) (hy : F64.isFinite y = true)
    (hsign : F64.sign y = F64.sign x) (hmag : F64.mag x = 2 * F64.mag y) : F64.mul F64.two y = some x := by
  rw [F64.mul_of_finite (by decide) hy, F64.mag_two, show F64.sign F64.two = false by decide, Bool.false_bne, hsign,
    show 2 * 2 ^ 1074 * F64.mag y = F64.mag x * 2 ^ 1074 by rw [hmag]; ring, F64.round_mag hx (pow_pos two_pos 1074)]

theorem F64.sign_neg_bne (x y : Binary64) :
    (F64.sign (F64.neg x) != F64.sign y) = !(F64.sign x != F64.sign y) := by
  rw [F64.sign_neg]
  cases F64.sign x <;> cases F64.sign y <;> rfl

/-- A product with a negated factor is the negated product. -/
theorem F64.mul_neg_left (x y : Binary64) : F64.mul (F64.neg x) y = (F64.mul x y).map F64.neg := by
  simp only [F64.mul, F64.isNaN_neg, F64.isInf_neg, F64.isZero_neg, F64.mag_neg, F64.sign_neg_bne]
  split
  · rfl
  · split
    · split
      · rfl
      · rw [Option.map_some, F64.neg_ofParts _ (by decide)]
    · rw [Option.map_some, F64.neg_round]

/-- A quotient of a negated dividend is the negated quotient. -/
theorem F64.div_neg_left (x y : Binary64) : F64.div (F64.neg x) y = (F64.div x y).map F64.neg := by
  have hinf (neg : Bool) : F64.ofParts (!neg) F64.infBits = F64.neg (F64.ofParts neg F64.infBits) :=
    (F64.neg_ofParts neg (by decide)).symm
  have hzero (neg : Bool) : F64.ofParts (!neg) 0 = F64.neg (F64.ofParts neg 0) := (F64.neg_ofParts neg (by decide)).symm
  simp only [F64.div, F64.isNaN_neg, F64.isInf_neg, F64.isZero_neg, F64.mag_neg, F64.sign_neg_bne, hinf, hzero, ← F64.neg_round]
  split_ifs <;> rfl

end Sys2Proof.Machine
end

section
/-! PROOFS. Equality up to the NaN pattern, and the relations among the coefficients (spec 40_derivation.md rules R81 to
R106, 00_scope.md rule R11, 70_reset_and_hazards.md rule R184). -/

namespace Sys2Proof.Machine

open Sys2Proof.Config (Params)

/-! ### Equality up to the NaN pattern -/

@[refl] theorem F64.eqUpToNaN.refl (x : Binary64) : F64.eqUpToNaN x x := .inl rfl

/-- Both NaN, whatever the patterns. -/
theorem F64.eqUpToNaN.of_nan {x y : Binary64} (hx : F64.isNaN x = true) (hy : F64.isNaN y = true) : F64.eqUpToNaN x y :=
  .inr ⟨hx, hy⟩

theorem F64.eqUpToNaN.eq_of_not_nan {x y : Binary64} (h : F64.eqUpToNaN x y) (hy : F64.isNaN y = false) : x = y := by
  rcases h with h | ⟨-, hnan⟩
  · exact h
  · simp [hnan] at hy

theorem F64.eqUpToNaN.trans {x y z : Binary64} (hxy : F64.eqUpToNaN x y) (hyz : F64.eqUpToNaN y z) :
    F64.eqUpToNaN x z := by
  rcases hxy with rfl | ⟨hx, hy⟩
  · exact hyz
  · rcases hyz with rfl | ⟨-, hz⟩
    · exact .of_nan hx hy
    · exact .of_nan hx hz

@[gcongr] theorem F64.eqUpToNaN.neg {x y : Binary64} (h : F64.eqUpToNaN x y) : F64.eqUpToNaN (F64.neg x) (F64.neg y) := by
  rcases h with rfl | ⟨hx, hy⟩
  · rfl
  · exact .of_nan (by simpa using hx) (by simpa using hy)

/-- The pattern of a quiet NaN is a NaN. -/
theorem F64.isNaN_quietNaN (d : BitVec 52) : F64.isNaN (F64.quietNaN d) = true := by
  have hnat : (F64.quietNaN d).toNat =
      (d.extractLsb' 51 1).toNat * 2 ^ 63 + 4095 * 2 ^ 51 + (d.extractLsb' 0 51).toNat := by
    simp only [F64.quietNaN, toNat_append_eq_add, BitVec.toNat_ofNat]
    omega
  have hlow := (d.extractLsb' 0 51).isLt
  have hexpo : F64.expo (F64.quietNaN d) = 2047 := by
    rw [F64.expo, BitVec.extractLsb'_toNat, Nat.shiftRight_eq_div_pow, hnat]
    omega
  have hfrac : F64.frac (F64.quietNaN d) ≠ 0 := by
    rw [F64.frac, BitVec.extractLsb'_toNat, Nat.shiftRight_zero, hnat]
    omega
  rw [F64.isNaN, hexpo, beq_self_eq_true, Bool.true_and, bne_iff_ne]
  exact hfrac

theorem quietSupply.isNaN {n : Nat → Binary64} (h : quietSupply n) (k : Nat) : F64.isNaN (n k) = true := by
  obtain ⟨d, hd⟩ := h k
  rw [hd]
  exact F64.isNaN_quietNaN d

/-- Any two quiet supplies agree up to the pattern. -/
theorem quietSupply.eqUpToNaN {n m : Nat → Binary64} (hn : quietSupply n) (hm : quietSupply m) (j k : Nat) :
    F64.eqUpToNaN (n j) (m k) :=
  .of_nan (hn.isNaN j) (hm.isNaN k)

/-! ### The operations respect it -/

section operations
variable {n m x x' y y' : Binary64}

/-- One result, with two patterns where it is a NaN. -/
theorem F64.eqUpToNaN.getD_same (hn : F64.eqUpToNaN n m) (o : Option Binary64) :
    F64.eqUpToNaN (o.getD n) (o.getD m) := by
  cases o with
  | none => exact hn
  | some r => rfl

/-- An operation that turns a NaN operand into a NaN respects it in its operands and in the pattern it returns. -/
theorem F64.eqUpToNaN.getD {op : Binary64 → Binary64 → Option Binary64}
    (hleft : ∀ {x}, F64.isNaN x = true → ∀ y, op x y = none) (hright : ∀ x {y}, F64.isNaN y = true → op x y = none)
    (hn : F64.eqUpToNaN n m) (hx : F64.eqUpToNaN x x') (hy : F64.eqUpToNaN y y') :
    F64.eqUpToNaN ((op x y).getD n) ((op x' y').getD m) := by
  have hop : op x y = op x' y' := by
    rcases hx with rfl | ⟨hx, hx'⟩
    · rcases hy with rfl | ⟨hy, hy'⟩
      · rfl
      · rw [hright x hy, hright x hy']
    · rw [hleft hx, hleft hx']
  rw [hop]
  exact hn.getD_same _

@[gcongr] theorem fadd_congr (hn : F64.eqUpToNaN n m) (hx : F64.eqUpToNaN x x') (hy : F64.eqUpToNaN y y') :
    F64.eqUpToNaN (fadd n x y) (fadd m x' y') :=
  .getD F64.add_nan_left F64.add_nan_right hn hx hy

@[gcongr] theorem fmul_congr (hn : F64.eqUpToNaN n m) (hx : F64.eqUpToNaN x x') (hy : F64.eqUpToNaN y y') :
    F64.eqUpToNaN (fmul n x y) (fmul m x' y') :=
  .getD F64.mul_nan_left F64.mul_nan_right hn hx hy

@[gcongr] theorem fdiv_congr (hn : F64.eqUpToNaN n m) (hx : F64.eqUpToNaN x x') (hy : F64.eqUpToNaN y y') :
    F64.eqUpToNaN (fdiv n x y) (fdiv m x' y') :=
  .getD F64.div_nan_left F64.div_nan_right hn hx hy

/-- A difference is the sum with the negated operand. -/
@[gcongr] theorem fsub_congr (hn : F64.eqUpToNaN n m) (hx : F64.eqUpToNaN x x') (hy : F64.eqUpToNaN y y') :
    F64.eqUpToNaN (fsub n x y) (fsub m x' y') :=
  fadd_congr hn hx hy.neg

@[gcongr] theorem fsqrt_congr (hn : F64.eqUpToNaN n m) (hx : F64.eqUpToNaN x x') :
    F64.eqUpToNaN (fsqrt n x) (fsqrt m x') := by
  rcases hx with rfl | ⟨hx, hx'⟩
  · exact hn.getD_same _
  · rw [fsqrt, fsqrt, F64.sqrt_nan hx, F64.sqrt_nan hx']
    exact hn

/-- A quotient of a negated dividend is the negated quotient, up to the pattern. -/
theorem fdiv_neg_left (hn : F64.isNaN n = true) (hm : F64.isNaN m = true) (x y : Binary64) :
    F64.eqUpToNaN (fdiv n (F64.neg x) y) (F64.neg (fdiv m x y)) := by
  rw [fdiv, fdiv, F64.div_neg_left]
  cases F64.div x y with
  | none => exact .of_nan hn (by simpa using hm)
  | some r => rfl

end operations

/-! ### Normalization -/

/-- The place of the division of a coefficient by `a0` (R102). -/
def Coef.normPlace : Coef → Nat
  | .a0 => 10205
  | .a1 => 10204
  | .a2 => 10203
  | .b0 => 10202
  | .b1 => 10201
  | .b2 => 10200

section normalization
variable (P : Params) {n : Nat → Binary64} {S : Snapshot}

/-- With `NORM` = 1 each coefficient is divided by `a0` (R102). -/
theorem derive_get_of_norm (n : Nat → Binary64) (h : S.ctrl.norm = true) (k : Coef) :
    (derive P n S).get k = fdiv (n k.normPlace) ((unnormalized P n S).get k) (unnormalized P n S).a0 := by
  rw [derive, if_pos h]
  cases k <;> rfl

/-- Two coefficients that agree before normalization agree after it. -/
theorem derive_get_eqUpToNaN (hn : quietSupply n) {k l : Coef}
    (h : F64.eqUpToNaN ((unnormalized P n S).get k) ((unnormalized P n S).get l)) :
    F64.eqUpToNaN ((derive P n S).get k) ((derive P n S).get l) := by
  cases hnorm : S.ctrl.norm with
  | false => rwa [derive_of_not_norm P n hnorm]
  | true =>
    rw [derive_get_of_norm P n hnorm, derive_get_of_norm P n hnorm]
    exact fdiv_congr (hn.eqUpToNaN hn _ _) h (.refl _)

/-- Two coefficients of which one is the other negated before normalization are so after it. -/
theorem derive_get_eqUpToNaN_neg (hn : quietSupply n) {k l : Coef}
    (h : F64.eqUpToNaN ((unnormalized P n S).get k) (F64.neg ((unnormalized P n S).get l))) :
    F64.eqUpToNaN ((derive P n S).get k) (F64.neg ((derive P n S).get l)) := by
  cases hnorm : S.ctrl.norm with
  | false => rwa [derive_of_not_norm P n hnorm]
  | true =>
    rw [derive_get_of_norm P n hnorm, derive_get_of_norm P n hnorm]
    have hneg := fdiv_neg_left (hn.isNaN k.normPlace) (hn.isNaN l.normPlace) ((unnormalized P n S).get l)
      (unnormalized P n S).a0
    have hcongr := fdiv_congr (.refl (n k.normPlace)) h (.refl (unnormalized P n S).a0)
    exact hcongr.trans hneg

/-- A coefficient that agrees with a finite `a0` other than zero normalizes to 1.0. -/
theorem derive_get_eq_one (hnorm : S.ctrl.norm = true) (hfin : F64.isFinite (unnormalized P n S).a0 = true)
    (hzero : F64.isZero (unnormalized P n S).a0 = false) {k : Coef}
    (h : (unnormalized P n S).get k = (unnormalized P n S).a0) : (derive P n S).get k = F64.one := by
  rw [derive_get_of_norm P n hnorm, h, fdiv, F64.div_self hfin hzero]
  rfl

end normalization

/-- Settles O33: `a0` is divided by itself. -/
theorem normalizedA0IsOne : Obligations.NormalizedA0IsOne := by
  unfold Obligations.NormalizedA0IsOne
  exact fun P n S hnorm hfin hzero => derive_get_eq_one P hnorm hfin hzero (k := .a0) rfl

/-! ### The relations by filter type -/

section relations
variable (P : Params) {n : Nat → Binary64} {S : Snapshot}

/-- Before normalization the coefficients are the raw ones of the filter type, their signs flipped (R100, R101). -/
theorem unnormalized_of_type (n : Nat → Binary64) {ty : FilterType} (h : filterType S.ctrl.ftype = ty) :
    ∃ sw cw A alpha, unnormalized P n S = signFlip (rawCoefficients P n ty sw cw A alpha) := by
  subst h
  exact ⟨_, _, _, _, rfl⟩

/-- LowPass, HighPass and Notch: `b2` is `b0` (R88, R89, R92). -/
theorem unnormalized_b2_eq_b0 (n : Nat → Binary64) {ty : FilterType} (h : filterType S.ctrl.ftype = ty)
    (hty : ty = .lowPass ∨ ty = .highPass ∨ ty = .notch) : (unnormalized P n S).b2 = (unnormalized P n S).b0 := by
  obtain ⟨sw, cw, A, alpha, hraw⟩ := unnormalized_of_type P n h
  rw [hraw]
  rcases hty with rfl | rfl | rfl <;> rfl

/-- The band-pass types: `b2` is `-b0`, `b1` is `+0.0` (R90, R91). -/
theorem unnormalized_bandPass (hn : quietSupply n) {ty : FilterType} (h : filterType S.ctrl.ftype = ty)
    (hty : ty = .bandPassPeakQ ∨ ty = .bandPassZeroDb) :
    F64.eqUpToNaN (unnormalized P n S).b2 (F64.neg (unnormalized P n S).b0) ∧ (unnormalized P n S).b1 = F64.zero := by
  obtain ⟨sw, cw, A, alpha, hraw⟩ := unnormalized_of_type P n h
  rw [hraw]
  rcases hty with rfl | rfl
  · have hhalf : F64.eqUpToNaN (fdiv (n 9001) sw F64.two) (fdiv (n 9000) sw F64.two) :=
      fdiv_congr (hn.eqUpToNaN hn _ _) (.refl _) (.refl _)
    exact ⟨hhalf.neg, rfl⟩
  · exact ⟨.refl _, rfl⟩

/-- Notch, AllPass and Peaking: `b1` is `-a1`, both being `-2 * cos w0` (R92 to R94). -/
theorem unnormalized_b1_neg_a1 (hn : quietSupply n) {ty : FilterType} (h : filterType S.ctrl.ftype = ty)
    (hty : ty = .notch ∨ ty = .allPass ∨ ty = .peaking) :
    F64.eqUpToNaN (unnormalized P n S).b1 (F64.neg (unnormalized P n S).a1) := by
  obtain ⟨sw, cw, A, alpha, hraw⟩ := unnormalized_of_type P n h
  have hproduct (j k : Nat) : F64.eqUpToNaN (fmul (n j) F64.minusTwo cw)
      (F64.neg (F64.neg (fmul (n k) F64.minusTwo cw))) := by
    rw [F64.neg_neg]
    exact fmul_congr (hn.eqUpToNaN hn _ _) (.refl _) (.refl _)
  rw [hraw]
  rcases hty with rfl | rfl | rfl <;> exact hproduct _ _

/-- AllPass: `b2` is `a0` and `b0` is `-a2` (R93). -/
theorem unnormalized_allPass (hn : quietSupply n) (h : filterType S.ctrl.ftype = .allPass) :
    F64.eqUpToNaN (unnormalized P n S).b2 (unnormalized P n S).a0 ∧
    F64.eqUpToNaN (unnormalized P n S).b0 (F64.neg (unnormalized P n S).a2) := by
  obtain ⟨sw, cw, A, alpha, hraw⟩ := unnormalized_of_type P n h
  have hdiff : F64.eqUpToNaN (fsub (n 9300) F64.one alpha) (F64.neg (F64.neg (fsub (n 8702) F64.one alpha))) := by
    rw [F64.neg_neg]
    exact fsub_congr (hn.eqUpToNaN hn _ _) (.refl _) (.refl _)
  rw [hraw]
  exact ⟨fadd_congr (hn.eqUpToNaN hn _ _) (.refl _) (.refl _), hdiff⟩

/-- A zero divided by a value that is neither NaN nor zero is the zero with the sign of that value. -/
theorem F64.div_zero_left {x : Binary64} (hnan : F64.isNaN x = false) (hzero : F64.isZero x = false) :
    F64.div F64.zero x = some (F64.ofParts (F64.sign x) 0) := by
  have hsign : (F64.sign F64.zero != F64.sign x) = F64.sign x := by
    rw [show F64.sign F64.zero = false by decide, Bool.false_bne]
  cases hinf : F64.isInf x with
  | true => rw [F64.div_finite_inf hinf (by decide), hsign]
  | false =>
    have hfin : F64.isFinite x = true := by rw [F64.isFinite_eq_not_isInf hnan, hinf]; rfl
    rw [F64.div_of_finite (by decide) hfin hzero, hsign, show F64.mag F64.zero = 0 by decide, Nat.zero_mul,
      F64.round_zero]

end relations

/-! ### The types of the codes that the relations name -/

theorem filterType_of_le_one {c : BitVec 4} (h : c.toNat ≤ 1) :
    filterType c = .lowPass ∨ filterType c = .highPass := by
  revert c
  decide

theorem filterType_of_bandPass {c : BitVec 4} (h : c.toNat = 2 ∨ c.toNat = 3) :
    filterType c = .bandPassPeakQ ∨ filterType c = .bandPassZeroDb := by
  revert c
  decide

theorem filterType_of_four {c : BitVec 4} (h : c.toNat = 4) : filterType c = .notch := by
  revert c
  decide

theorem filterType_of_five {c : BitVec 4} (h : c.toNat = 5) : filterType c = .allPass := by
  revert c
  decide

/-- The codes of Notch, AllPass and Peaking. -/
theorem filterType_of_ge_four {c : BitVec 4} (h4 : 4 ≤ c.toNat) (h7 : c.toNat ≠ 7) (h8 : c.toNat ≠ 8) :
    filterType c = .notch ∨ filterType c = .allPass ∨ filterType c = .peaking := by
  revert c
  decide

/-- The normalized `b1` of the band-pass types is a zero with the sign of `a0` (R90, R91, R102). -/
theorem derive_b1_of_zero (P : Params) {n : Nat → Binary64} {S : Snapshot} (hb1 : (unnormalized P n S).b1 = F64.zero)
    (hnorm : S.ctrl.norm = true) (hnan : F64.isNaN (unnormalized P n S).a0 = false)
    (hzero : F64.isZero (unnormalized P n S).a0 = false) :
    (derive P n S).b1 =
      if F64.sign (unnormalized P n S).a0 then 0x8000000000000000#64 else 0x0000000000000000#64 := by
  have hget := derive_get_of_norm P n hnorm .b1
  change (derive P n S).b1 = fdiv _ (unnormalized P n S).b1 _ at hget
  rw [hget, hb1, fdiv, F64.div_zero_left hnan hzero]
  cases F64.sign (unnormalized P n S).a0 <;> rfl

/-- Settles O34: the relations before normalization, carried through the division by `a0`. -/
theorem coefficientRelations : Obligations.CoefficientRelations := by
  unfold Obligations.CoefficientRelations
  rintro P n S c hn rfl
  refine ⟨fun h => ?_, fun h => ?_, fun h => ?_, fun h4 h7 h8 => ?_, fun h => ?_, fun h => ?_⟩
  · have hraw := unnormalized_b2_eq_b0 P n (S := S) rfl ((filterType_of_le_one h).imp_right .inl)
    exact derive_get_eqUpToNaN P hn (k := .b2) (l := .b0) (.inl hraw)
  · obtain ⟨hraw, -⟩ := unnormalized_bandPass P hn (S := S) rfl (filterType_of_bandPass h)
    exact derive_get_eqUpToNaN_neg P hn (k := .b2) (l := .b0) hraw
  · have hraw := unnormalized_b2_eq_b0 P n (filterType_of_four h) (.inr (.inr rfl))
    exact derive_get_eqUpToNaN P hn (k := .b2) (l := .b0) (.inl hraw)
  · have hraw := unnormalized_b1_neg_a1 P hn (S := S) rfl (filterType_of_ge_four h4 h7 h8)
    exact derive_get_eqUpToNaN_neg P hn (k := .b1) (l := .a1) hraw
  · obtain ⟨hb2, hb0⟩ := unnormalized_allPass P hn (filterType_of_five h)
    refine ⟨derive_get_eqUpToNaN P hn (k := .b2) (l := .a0) hb2,
      derive_get_eqUpToNaN_neg P hn (k := .b0) (l := .a2) hb0, fun hnorm hfin hzero => ?_⟩
    exact derive_get_eq_one P hnorm hfin hzero (k := .b2) (hb2.eq_of_not_nan (F64.isNaN_eq_false_of_isFinite hfin))
  · obtain ⟨-, hb1⟩ := unnormalized_bandPass P hn (S := S) rfl (filterType_of_bandPass h)
    refine ⟨fun hnorm => ?_, derive_b1_of_zero P hb1⟩
    rw [derive_of_not_norm P n hnorm, hb1]
    rfl

/-! ### The reset values -/

theorem fdiv_nan_of_left {n x : Binary64} (hn : F64.isNaN n = true) (hx : F64.isNaN x = true) (y : Binary64) :
    F64.isNaN (fdiv n x y) = true := by
  rw [fdiv, F64.div_nan_left hx]
  exact hn

theorem fdiv_nan_of_right {n y : Binary64} (hn : F64.isNaN n = true) (x : Binary64) (hy : F64.isNaN y = true) :
    F64.isNaN (fdiv n x y) = true := by
  rw [fdiv, F64.div_nan_right x hy]
  exact hn

theorem fadd_nan_of_right {n y : Binary64} (hn : F64.isNaN n = true) (x : Binary64) (hy : F64.isNaN y = true) :
    F64.isNaN (fadd n x y) = true := by
  rw [fadd, F64.add_nan_right x hy]
  exact hn

/-- A product with zero is a NaN or a zero. -/
theorem fmul_zero {n : Binary64} (hn : F64.isNaN n = true) (x : Binary64) :
    F64.isNaN (fmul n x F64.zero) = true ∨ F64.isZero (fmul n x F64.zero) = true := by
  cases hfin : F64.isFinite x with
  | true =>
    right
    rw [fmul, F64.mul_of_finite hfin (by decide), show F64.mag F64.zero = 0 by decide, Nat.mul_zero, F64.round_zero]
    exact F64.isZero_ofParts_zero _
  | false =>
    left
    rcases (F64.isFinite_eq_false_iff x).mp hfin with hnan | hinf
    · rw [fmul, F64.mul_nan_left hnan]
      exact hn
    · rw [fmul, F64.mul_inf_finite hinf (by decide), if_pos (by decide)]
      exact hn

/-- A NaN or a zero, divided by zero, is a NaN. -/
theorem fdiv_zero_nan {n x : Binary64} (hn : F64.isNaN n = true) (hx : F64.isNaN x = true ∨ F64.isZero x = true) :
    F64.isNaN (fdiv n x F64.zero) = true := by
  rcases hx with hnan | hzero
  · exact fdiv_nan_of_left hn hnan _
  · rw [fdiv, F64.div_by_zero (F64.isFinite_of_isZero hzero) (by decide), if_pos hzero]
    exact hn

/-- `w0` of the reset values is `0 / 0` (R81). -/
theorem angularFrequency_reset_nan (P : Params) {n : Nat → Binary64} (hn : quietSupply n) :
    F64.isNaN (angularFrequency P n F64.zero F64.zero) = true :=
  fdiv_zero_nan (hn.isNaN 8102) (fmul_zero (hn.isNaN 8101) _)

/-- `a0` of the reset values, LowPass with `alpha` from Q, is a NaN (R84, R87). -/
theorem unnormalized_reset_a0_nan (P : Params) {n : Nat → Binary64} (hn : quietSupply n)
    (hsin : ∀ x, F64.isNaN x = true → F64.isNaN (P.sin x) = true) :
    F64.isNaN (unnormalized P n State.reset.snapshot).a0 = true :=
  fadd_nan_of_right (hn.isNaN 8700) _
    (fdiv_nan_of_left (hn.isNaN 8401) (hsin _ (angularFrequency_reset_nan P hn)) _)

/-- A NaN quantizes to `P_QNONFINITE` (R123). -/
theorem quantize_of_nan (P : Params) {x : Binary64} (h : F64.isNaN x = true) : quantize P x = P.qNonfinite :=
  quantize_of_mul_none P (F64.mul_nan_left h F64.scale)

/-- Settles O36: every coefficient is divided by an `a0` that is a NaN. -/
theorem resetValuesDeriveNaN : Obligations.ResetValuesDeriveNaN := by
  unfold Obligations.ResetValuesDeriveNaN
  intro P n hkeep hn k
  have ha0 := unnormalized_reset_a0_nan P hn (fun x hx => (hkeep x hx).1)
  have hnan : F64.isNaN ((derive P n State.reset.snapshot).get k) = true := by
    rw [derive_get_of_norm P n rfl]
    exact fdiv_nan_of_right (hn.isNaN _) _ ha0
  exact ⟨hnan, quantize_of_nan P hnan⟩

end Sys2Proof.Machine
end

section
/-! PROOFS. The derivation is deterministic up to NaN patterns (spec 40_derivation.md rule R106). -/

namespace Sys2Proof.Machine

open Sys2Proof.Config (Params)

/-- `P_SIN`, `P_COS`, `P_SINH` and the power of 10.0 give a NaN for a NaN operand. -/
def KeepsNaN (P : Params) : Prop :=
  ∀ x, F64.isNaN x = true → F64.isNaN (P.sin x) = true ∧ F64.isNaN (P.cos x) = true ∧
    F64.isNaN (P.sinh x) = true ∧ F64.isNaN (P.pow F64.ten x) = true

section KeepsNaN
variable {P : Params} (hP : KeepsNaN P) (x : Binary64) (hx : F64.isNaN x = true)
include hP hx

theorem KeepsNaN.sin : F64.isNaN (P.sin x) = true := by
  obtain ⟨h, -, -, -⟩ := hP x hx
  exact h

theorem KeepsNaN.cos : F64.isNaN (P.cos x) = true := by
  obtain ⟨-, h, -, -⟩ := hP x hx
  exact h

theorem KeepsNaN.sinh : F64.isNaN (P.sinh x) = true := by
  obtain ⟨-, -, h, -⟩ := hP x hx
  exact h

theorem KeepsNaN.pow_ten : F64.isNaN (P.pow F64.ten x) = true := by
  obtain ⟨-, -, -, h⟩ := hP x hx
  exact h

end KeepsNaN

/-- A function that gives a NaN for a NaN operand respects equality up to the pattern. -/
theorem F64.eqUpToNaN.map {f : Binary64 → Binary64} (hf : ∀ x, F64.isNaN x = true → F64.isNaN (f x) = true)
    {x y : Binary64} (h : F64.eqUpToNaN x y) : F64.eqUpToNaN (f x) (f y) := by
  rcases h with rfl | ⟨hx, hy⟩
  · rfl
  · exact .of_nan (hf x hx) (hf y hy)

/-- Six values that agree up to the pattern, one by one. -/
def Six.UpToNaN (c d : Six Binary64) : Prop := ∀ k, F64.eqUpToNaN (c.get k) (d.get k)

theorem Six.upToNaN_mk {a0 a1 a2 b0 b1 b2 a0' a1' a2' b0' b1' b2' : Binary64} (ha0 : F64.eqUpToNaN a0 a0')
    (ha1 : F64.eqUpToNaN a1 a1') (ha2 : F64.eqUpToNaN a2 a2') (hb0 : F64.eqUpToNaN b0 b0')
    (hb1 : F64.eqUpToNaN b1 b1') (hb2 : F64.eqUpToNaN b2 b2') :
    Six.UpToNaN ⟨a0, a1, a2, b0, b1, b2⟩ ⟨a0', a1', a2', b0', b1', b2'⟩
  | .a0 => ha0
  | .a1 => ha1
  | .a2 => ha2
  | .b0 => hb0
  | .b1 => hb1
  | .b2 => hb2

/-! ### The stages of the derivation, with two supplies of patterns -/

section stages
variable {P : Params} {n m : Nat → Binary64} (hnm : ∀ k, F64.eqUpToNaN (n k) (m k))
  {sw sw' cw cw' w0 w0' A A' alpha alpha' : Binary64} (hsw : F64.eqUpToNaN sw sw') (hcw : F64.eqUpToNaN cw cw')
  (hw0 : F64.eqUpToNaN w0 w0') (hA : F64.eqUpToNaN A A') (halpha : F64.eqUpToNaN alpha alpha')
include hnm

theorem angularFrequency_congr (f fs : Binary64) :
    F64.eqUpToNaN (angularFrequency P n f fs) (angularFrequency P m f fs) := by
  unfold angularFrequency
  gcongr <;> apply hnm

theorem amplitude_congr (hP : KeepsNaN P) (ty : FilterType) (g : Binary64) :
    F64.eqUpToNaN (amplitude P n ty g) (amplitude P m ty g) := by
  unfold amplitude
  split
  · exact F64.eqUpToNaN.map hP.pow_ten (fdiv_congr (hnm _) (.refl _) (.refl _))
  · exact F64.eqUpToNaN.map hP.pow_ten (fdiv_congr (hnm _) (.refl _) (.refl _))

include hsw hw0 hA in
theorem alphaOf_congr (hP : KeepsNaN P) (o : QOption) (qv : Binary64) :
    F64.eqUpToNaN (alphaOf P n o sw w0 A qv) (alphaOf P m o sw' w0' A' qv) := by
  cases o with
  | q =>
    simp only [alphaOf, alphaQ]
    gcongr <;> apply hnm
  | shelfSlope =>
    simp only [alphaOf, alphaShelfSlope]
    gcongr <;> apply hnm
  | bandwidth =>
    have harg : F64.eqUpToNaN
        (fmul (n 8603) (fmul (n 8601) (fdiv (n 8600) P.ln2 F64.two) qv) (fdiv (n 8602) w0 sw))
        (fmul (m 8603) (fmul (m 8601) (fdiv (m 8600) P.ln2 F64.two) qv) (fdiv (m 8602) w0' sw')) := by
      gcongr <;> apply hnm
    exact fmul_congr (hnm _) hsw (harg.map hP.sinh)

include hcw in
/-- The HighShelf `a2` in either form (R99). -/
theorem highShelfA2_congr {t t' Ap Ap' Am Am' : Binary64} (ht : F64.eqUpToNaN t t') (hAp : F64.eqUpToNaN Ap Ap')
    (hAm : F64.eqUpToNaN Am Am') : F64.eqUpToNaN (highShelfA2 P n cw t Ap Am) (highShelfA2 P m cw' t' Ap' Am') := by
  unfold highShelfA2
  split <;> gcongr <;> apply hnm

include hsw hcw hA halpha in
/-- Coefficient by coefficient of each type. -/
theorem rawCoefficients_congr (ty : FilterType) :
    Six.UpToNaN (rawCoefficients P n ty sw cw A alpha) (rawCoefficients P m ty sw' cw' A' alpha') := by
  have ht : F64.eqUpToNaN (shelfT n A alpha) (shelfT m A' alpha') := by
    unfold shelfT
    gcongr <;> apply hnm
  have hAp : F64.eqUpToNaN (shelfAp n A) (shelfAp m A') := fadd_congr (hnm _) hA (.refl _)
  have hAm : F64.eqUpToNaN (shelfAm n A) (shelfAm m A') := fsub_congr (hnm _) hA (.refl _)
  have ha2 := highShelfA2_congr (P := P) hnm hcw ht hAp hAm
  cases ty
  all_goals
    refine Six.upToNaN_mk ?_ ?_ ?_ ?_ ?_ ?_
    all_goals gcongr <;> apply hnm

end stages

theorem Six.UpToNaN.signFlip {c d : Six Binary64} (h : Six.UpToNaN c d) : Six.UpToNaN (signFlip c) (signFlip d) :=
  Six.upToNaN_mk (h .a0) (h .a1).neg (h .a2).neg (h .b0) (h .b1) (h .b2)

theorem unnormalized_congr {P : Params} {n m : Nat → Binary64} (hP : KeepsNaN P)
    (hnm : ∀ k, F64.eqUpToNaN (n k) (m k)) (S : Snapshot) : Six.UpToNaN (unnormalized P n S) (unnormalized P m S) := by
  have hw0 := angularFrequency_congr (P := P) hnm S.freq S.srate
  have hA := amplitude_congr hnm hP (filterType S.ctrl.ftype) S.gain
  have hsw := hw0.map hP.sin
  have hcw := hw0.map hP.cos
  have halpha := alphaOf_congr hnm hsw hw0 hA hP (qOption S.ctrl.qopt) S.qval
  exact (rawCoefficients_congr hnm hsw hcw hA halpha (filterType S.ctrl.ftype)).signFlip

theorem derive_upToNaN {P : Params} {n m : Nat → Binary64} (hP : KeepsNaN P)
    (hnm : ∀ k, F64.eqUpToNaN (n k) (m k)) (S : Snapshot) : Six.UpToNaN (derive P n S) (derive P m S) := by
  have hraw := unnormalized_congr hP hnm S
  cases hnorm : S.ctrl.norm with
  | false => rwa [derive_of_not_norm P n hnorm, derive_of_not_norm P m hnorm]
  | true =>
    intro k
    rw [derive_get_of_norm P n hnorm, derive_get_of_norm P m hnorm]
    exact fdiv_congr (hnm _) (hraw k) (hraw .a0)

/-- Values that agree up to the pattern quantize to one word (R123). -/
theorem quantize_congr (P : Params) {x y : Binary64} (h : F64.eqUpToNaN x y) : quantize P x = quantize P y := by
  rcases h with rfl | ⟨hx, hy⟩
  · rfl
  · rw [quantize_of_nan P hx, quantize_of_nan P hy]

/-- Settles O35: every operation respects equality up to the pattern, and so does the derivation. -/
theorem deterministicUpToNaN : Obligations.DeterministicUpToNaN := by
  unfold Obligations.DeterministicUpToNaN
  intro P n m S hP hn hm k
  have hderive := derive_upToNaN hP (fun j => hn.eqUpToNaN hm j j) S k
  exact ⟨hderive, quantize_congr P hderive⟩

end Sys2Proof.Machine
end

section
/-! PROOFS. The `b1` of LowPass and HighPass (spec 40_derivation.md rules R88 and R89). -/

namespace Sys2Proof.Machine

open Sys2Proof.Config (Params)

/-! ### A sum with 1.0 can be halved -/

/-- A finite rounding has the magnitude of its quanta. -/
theorem F64.mag_round_of_finite {neg : Bool} {n d : Nat} (hd : 0 < d) (h : F64.isFinite (F64.round neg n d) = true) :
    F64.mag (F64.round neg n d) = F64.quanta n d * 2 ^ F64.quantum n d := by
  rw [F64.round, F64.roundBits_eq_min] at h ⊢
  rcases Nat.lt_or_ge (F64.quantum n d * 2 ^ 52 + F64.quanta n d) F64.infBits with hlt | hge
  · rw [Nat.min_eq_left hlt.le, F64.mag_ofParts_of_le neg F64.quanta_le (F64.quanta_full hd) hlt]
  · rw [Nat.min_eq_right hge, F64.isFinite_ofParts_infBits_eq_false] at h
    cases h

/-- A magnitude from `2 ^ 53` units on is an even number of units whose half has the same significand. -/
theorem F64.halvable_of_le {x : Binary64} (h : 2 ^ 53 ≤ F64.mag x) : F64.Halvable x := by
  obtain ⟨c, e, hc, hmag⟩ := F64.mag_eq_significand x
  cases e with
  | zero =>
    rw [hmag] at h
    omega
  | succ e => exact ⟨c, e, hc, by rw [hmag, pow_succ]; ring⟩

theorem F64.halvable_of_mag_zero {x : Binary64} (h : F64.mag x = 0) : F64.Halvable x := ⟨0, 0, by decide, by rw [h]; rfl⟩

/-- A finite rounding of `2 ^ 53` units or more can be halved. -/
theorem F64.halvable_round {neg : Bool} {n : Nat} (hn : 2 ^ 53 ≤ n) (h : F64.isFinite (F64.round neg n 1) = true) :
    F64.Halvable (F64.round neg n 1) := by
  have hquantum : 1 ≤ F64.quantum n 1 := by
    have hlog : 53 ≤ Nat.log2 n := (Nat.le_log2 (by omega)).mpr hn
    rw [F64.quantum, Nat.div_one]
    omega
  have hquanta : 2 ^ 52 ≤ F64.quanta n 1 := (F64.quanta_full one_pos).resolve_left (by omega)
  refine F64.halvable_of_le ?_
  rw [F64.mag_round_of_finite one_pos h]
  calc 2 ^ 53 = 2 ^ 52 * 2 ^ 1 := rfl
    _ ≤ F64.quanta n 1 * 2 ^ F64.quantum n 1 := Nat.mul_le_mul hquanta (Nat.pow_le_pow_right (by decide) hquantum)

/-- A large multiple of `2 ^ 53` and a value that is one too, or small beside it, cancel to zero or leave `2 ^ 53`. -/
theorem add_eq_zero_or_ge {a u : Int} (ha : 2 ^ 53 ∣ a) (hlarge : 2 ^ 106 ≤ a)
    (hu : 2 ^ 53 ∣ u ∨ u.natAbs < 2 ^ 105) : a + u = 0 ∨ 2 ^ 53 ≤ (a + u).natAbs := by
  rcases hu with hdvd | hsmall
  · obtain ⟨k, hk⟩ := dvd_add ha hdvd
    rw [hk]
    omega
  · omega

theorem F64.units_one : F64.units F64.one = 2 ^ 1074 := by
  rw [F64.units_of_sign_false (by decide), F64.mag_one, Nat.cast_pow, Nat.cast_ofNat]

/-- A sum of 1.0 and a finite value is zero or at least `2 ^ 53` units. -/
theorem F64.units_one_add (y : Binary64) :
    F64.units F64.one + F64.units y = 0 ∨ 2 ^ 53 ≤ (F64.units F64.one + F64.units y).natAbs := by
  rw [F64.units_one]
  refine add_eq_zero_or_ge (pow_dvd_pow 2 (by decide)) (pow_le_pow_right₀ (by decide) (by decide)) ?_
  refine (F64.units_dvd_or_lt 53 y).imp_right fun ⟨hlt, _⟩ => ?_
  rwa [← pow_add] at hlt

/-- A finite sum with 1.0 can be halved. -/
theorem F64.halvable_one_add {y d : Binary64} (h : F64.add F64.one y = some d) (hfin : F64.isFinite d = true) :
    F64.Halvable d := by
  cases hy : F64.isFinite y with
  | false =>
    rcases (F64.isFinite_eq_false_iff y).mp hy with hnan | hinf
    · rw [F64.add_nan_right _ hnan] at h
      cases h
    · rw [F64.add_finite_inf hinf (by decide)] at h
      cases h
      rw [hy] at hfin
      cases hfin
  | true =>
    rw [F64.add_of_finite (by decide) hy] at h
    split at h
    · cases h
      refine F64.halvable_of_mag_zero ?_
      rw [F64.mag, F64.expo_ofParts _ (by decide), F64.frac_ofParts _ (by decide)]
      rfl
    · next hne =>
      cases h
      exact F64.halvable_round ((F64.units_one_add y).resolve_left hne) hfin

/-! ### Doubling a half -/

/-- A sum is not encoded as a NaN. -/
theorem F64.isNaN_eq_false_of_add {x y d : Binary64} (h : F64.add x y = some d) : F64.isNaN d = false := by
  unfold F64.add at h
  split at h
  · cases h
  next hnan =>
    obtain ⟨hx, hy⟩ : F64.isNaN x = false ∧ F64.isNaN y = false := by simpa using hnan
    split at h
    · split at h
      · cases h
      · cases h
        exact hx
    · split at h
      · cases h
        exact hy
      · split at h
        · cases h
          exact F64.isNaN_ofParts_eq_false _ (Nat.zero_le _)
        · cases h
          exact F64.isNaN_ofParts_eq_false _ (F64.roundBits_le _ _)

/-- `b` is half of `d`: `2.0` times `b` is `d`, exactly so for a finite `d`. -/
structure F64.HalfOf (d b : Binary64) : Prop where
  mul_two : F64.mul F64.two b = some d
  finite : F64.isFinite d = true → F64.isFinite b = true ∧ F64.units d = 2 * F64.units b

theorem F64.div_two_halfOf {n d : Binary64} (hnan : F64.isNaN d = false)
    (h : F64.isFinite d = true → F64.Halvable d) : F64.HalfOf d (fdiv n d F64.two) := by
  cases hfin : F64.isFinite d with
  | true =>
    obtain ⟨b, hdiv, hb, hsign, hmag⟩ := F64.div_two_of_halvable hfin (h hfin)
    have hunits : F64.units d = 2 * F64.units b := by
      rw [F64.units_eq_withSign, F64.units_eq_withSign, hsign, hmag, Nat.cast_mul, Nat.cast_ofNat, Int.mul_comm,
        F64.withSign_mul, Int.mul_comm]
    rw [fdiv, hdiv]
    exact ⟨F64.mul_two_of_half hfin hb hsign hmag, fun _ => ⟨hb, hunits⟩⟩
  | false =>
    have hinf : F64.isInf d = true := ((F64.isFinite_eq_false_iff d).mp hfin).resolve_left (by simp [hnan])
    have hself := F64.eq_ofParts_of_isInf hinf
    have hdiv : F64.div d F64.two = some d := by
      rw [F64.div_inf_finite hinf (by decide), show F64.sign F64.two = false by decide, Bool.bne_false, ← hself]
    have hmul : F64.mul F64.two d = some d := by
      rw [F64.mul_finite_inf hinf (by decide), if_neg (by decide), show F64.sign F64.two = false by decide,
        Bool.bne_false, ← hself]
    rw [fdiv, hdiv]
    exact ⟨hmul, fun h => by simp [hfin] at h⟩

theorem filterType_of_zero {c : BitVec 4} (h : c.toNat = 0) : filterType c = .lowPass := by
  revert c
  decide

theorem filterType_of_one {c : BitVec 4} (h : c.toNat = 1) : filterType c = .highPass := by
  revert c
  decide

/-- Half of a sum with 1.0, doubled, is the sum up to the NaN pattern, and exactly so where it is finite. -/
theorem double_half_of_one_add {n : Nat → Binary64} (hn : quietSupply n) {m : Binary64} (hm : F64.isNaN m = true)
    (i j k : Nat) (y : Binary64) :
    F64.eqUpToNaN (fadd (n j) F64.one y) (fmul m F64.two (fdiv (n k) (fadd (n i) F64.one y) F64.two)) ∧
    (F64.isFinite (fadd (n j) F64.one y) = true → F64.isFinite (fdiv (n k) (fadd (n i) F64.one y) F64.two) = true ∧
      F64.units (fadd (n j) F64.one y) = 2 * F64.units (fdiv (n k) (fadd (n i) F64.one y) F64.two)) := by
  unfold fadd
  cases hsum : F64.add F64.one y with
  | none =>
    have hhalf : F64.isNaN (fdiv (n k) (n i) F64.two) = true := fdiv_nan_of_left (hn.isNaN k) (hn.isNaN i) _
    have hdouble : F64.isNaN (fmul m F64.two (fdiv (n k) (n i) F64.two)) = true := by
      rw [fmul, F64.mul_nan_right _ hhalf]
      exact hm
    refine ⟨.of_nan (hn.isNaN j) hdouble, fun hfin => ?_⟩
    have hnan := F64.isNaN_eq_false_of_isFinite hfin
    rw [Option.getD_none, hn.isNaN j] at hnan
    cases hnan
  | some d =>
    obtain ⟨hmul, hfinite⟩ := F64.div_two_halfOf (n := n k) (F64.isNaN_eq_false_of_add hsum) (F64.halvable_one_add hsum)
    refine ⟨?_, hfinite⟩
    rw [fmul, Option.getD_some, Option.getD_some, hmul]
    rfl

/-- A product with a negated factor is the negated product, up to the pattern. -/
theorem neg_fmul {n : Binary64} (hn : F64.isNaN n = true) (x y : Binary64) :
    F64.eqUpToNaN (F64.neg (fmul n x y)) (fmul n (F64.neg x) y) := by
  rw [fmul, fmul, F64.mul_neg_left]
  cases F64.mul x y with
  | none => exact .of_nan (by simpa using hn) hn
  | some r => rfl

/-- Settles O60: `b0` is the exact half of the sum that `b1` is, or is the negation of. -/
theorem cosineTermsDouble : Obligations.CosineTermsDouble := by
  unfold Obligations.CosineTermsDouble
  rintro P n S c m hn hm hnorm rfl
  rw [derive_of_not_norm P n hnorm]
  refine ⟨fun hcode => ?_, fun hcode => ?_⟩
  · obtain ⟨sw, cw, A, alpha, hraw⟩ := unnormalized_of_type P n (filterType_of_zero hcode)
    rw [hraw]
    exact double_half_of_one_add hn hm 8800 8802 8801 (F64.neg cw)
  · obtain ⟨sw, cw, A, alpha, hraw⟩ := unnormalized_of_type P n (filterType_of_one hcode)
    obtain ⟨hdouble, hfinite⟩ := double_half_of_one_add hn hm 8900 8902 8901 cw
    rw [hraw, F64.minusTwo_eq_neg]
    refine ⟨hdouble.neg.trans (neg_fmul hm _ _), fun hfin => ?_⟩
    obtain ⟨hb0, hunits⟩ := hfinite ((F64.isFinite_neg _).symm.trans hfin)
    refine ⟨hb0, ?_⟩
    calc F64.units (F64.neg (fadd (n 8902) F64.one cw)) = -F64.units (fadd (n 8902) F64.one cw) := F64.units_neg _
      _ = -2 * F64.units (fdiv (n 8901) (fadd (n 8900) F64.one cw) F64.two) := by rw [hunits, Int.neg_mul]

end Sys2Proof.Machine
end
